-- ==== Sys2Proof/Word.lean ====
section
/-! DEFINITION. The word types: a command word and a frame. -/

namespace Sys2Proof

/-- A command word, and the width of `rsp_data`: 32 bits (30_encoding.md R70, 00_scope.md R11). -/
abbrev Word := BitVec 32

/-- A frame: a 16-bit word, each bit an active-low signal (30_encoding.md R83, 00_scope.md R13). -/
abbrev Frame := BitVec 16

end Sys2Proof
end

