-- ==== Sys2Proof/Syntax.lean ====
section
/-! DEFINITION. The commands of the SPC as syntax: one constructor per row of spec/opcode_table.json. -/

namespace Sys2Proof

/-- A command (30_encoding.md R76), its operands as assembled by R73 to R75: an identifier is the number
`zext_32(w[10:8])`, a state operand the boolean `w[12]`, the value of SET_DISPLAY the unsigned `zext_32(w[31:16])`, the
value of a conversion the signed `sext_32(w[31:16])`. -/
inductive Instr where
  | init
  | poll
  | setLed (id : Nat) (state : Bool)
  | clearLed (id : Nat)
  | toggleLed (id : Nat)
  | getLed (id : Nat)
  | setDisplay (value : Nat)
  | getDisplay
  | enableDisplay (state : Bool)
  | isDisplayEnabled
  | setBuzzer (state : Bool)
  | isBuzzing
  | setCelsius (state : Bool)
  | isCelsius
  | getButton (id : Nat)
  | cToF (t : Int)
  | fToC (t : Int)
deriving DecidableEq, Repr

end Sys2Proof
end

