-- ==== Sys2Proof/Decode.lean ====
section
/-! DEFINITION. The decoder and the encoder of the command word, from 30_encoding.md R70 to R79. -/

namespace Sys2Proof

/-- The five formats (30_encoding.md R71). -/
inductive Format where
  | N | I | IS | S | V
deriving DecidableEq, Repr

/-- The mask of fixed bits of a format (30_encoding.md R71). -/
def Format.mask : Format → Word
  | .N => 0xFFFFFFFF#32
  | .I => 0xFFFFF8FF#32
  | .IS => 0xFFFFE8FF#32
  | .S => 0xFFFFEFFF#32
  | .V => 0x0000FFFF#32

/-- The field ID, read as `zext_32(w[10:8])` (30_encoding.md R73). -/
def fieldId (w : Word) : Nat := (w.extractLsb' 8 3).toNat

/-- The field S, the boolean `w[12]` (30_encoding.md R74). -/
def fieldS (w : Word) : Bool := w.getLsbD 12

/-- The field IMM16 read unsigned (30_encoding.md R75, for SET_DISPLAY). -/
def fieldUnsigned (w : Word) : Nat := (w.extractLsb' 16 16).toNat

/-- The field IMM16 read signed (30_encoding.md R75, for C_TO_F and F_TO_C). -/
def fieldSigned (w : Word) : Int := (w.extractLsb' 16 16).toInt

/-- One row of the opcode map: the opcode byte, the format, and the command a word of the row stands for. -/
structure Row where
  op : BitVec 8
  format : Format
  build : Word → Instr

/-- The opcode map (30_encoding.md R76), in the order of the table. -/
def opcodeMap : List Row :=
  [ ⟨0x01#8, .N, fun _ => .init⟩,
    ⟨0x02#8, .N, fun _ => .poll⟩,
    ⟨0x10#8, .IS, fun w => .setLed (fieldId w) (fieldS w)⟩,
    ⟨0x11#8, .I, fun w => .clearLed (fieldId w)⟩,
    ⟨0x12#8, .I, fun w => .toggleLed (fieldId w)⟩,
    ⟨0x13#8, .I, fun w => .getLed (fieldId w)⟩,
    ⟨0x20#8, .V, fun w => .setDisplay (fieldUnsigned w)⟩,
    ⟨0x21#8, .N, fun _ => .getDisplay⟩,
    ⟨0x22#8, .S, fun w => .enableDisplay (fieldS w)⟩,
    ⟨0x23#8, .N, fun _ => .isDisplayEnabled⟩,
    ⟨0x30#8, .S, fun w => .setBuzzer (fieldS w)⟩,
    ⟨0x31#8, .N, fun _ => .isBuzzing⟩,
    ⟨0x40#8, .S, fun w => .setCelsius (fieldS w)⟩,
    ⟨0x41#8, .N, fun _ => .isCelsius⟩,
    ⟨0x50#8, .I, fun w => .getButton (fieldId w)⟩,
    ⟨0x60#8, .V, fun w => .cToF (fieldSigned w)⟩,
    ⟨0x61#8, .V, fun w => .fToC (fieldSigned w)⟩ ]

/-- A word selects a row when `(w & mask) == OP` (30_encoding.md R71): the opcode matches and every unused field and
reserved bit is 0 (R72). -/
def Row.selects (r : Row) (w : Word) : Bool := w &&& r.format.mask == r.op.setWidth 32

/-- Why a word is no command. Both reasons are answered ILLEGAL_COMMAND (60_exceptions.md R202). -/
inductive DecodeError where
  /-- The opcode byte is not assigned (30_encoding.md R77). -/
  | unassignedOpcode
  /-- The opcode is assigned and an unused field or a reserved bit is not 0 (30_encoding.md R72). -/
  | unusedFieldSet
deriving DecidableEq, Repr

/-- The reason for which a word that selects no row is refused. -/
def decodeError (w : Word) : DecodeError :=
  if opcodeMap.any (fun r => r.op == w.extractLsb' 0 8) then .unusedFieldSet else .unassignedOpcode

/-- The decoder: total on every word (30_encoding.md R71, R72, R76, R77, R79). -/
def decode (w : Word) : Except DecodeError Instr :=
  match opcodeMap.find? (fun r => r.selects w) with
  | some r => .ok (r.build w)
  | none => .error (decodeError w)

/-- The layout of a command word (30_encoding.md R70): OP in bits 7:0, ID in 10:8, S in 12, IMM16 in 31:16, and the
reserved bits 11 and 15:13 are 0. -/
def layout (imm : BitVec 16) (s : Bool) (id : BitVec 3) (op : BitVec 8) : Word :=
  imm.setWidth 32 <<< 16 ||| (BitVec.ofBool s).setWidth 32 <<< 12 ||| id.setWidth 32 <<< 8 ||| op.setWidth 32

/-- The word of format N (30_encoding.md R71: OP alone, every other bit 0 by R72). -/
def wordN (op : BitVec 8) : Word := layout 0#16 false 0#3 op

/-- The word of format I: OP and ID. -/
def wordI (op : BitVec 8) (id : Nat) : Word := layout 0#16 false (BitVec.ofNat 3 id) op

/-- The word of format IS: OP, ID and S. -/
def wordIS (op : BitVec 8) (id : Nat) (s : Bool) : Word := layout 0#16 s (BitVec.ofNat 3 id) op

/-- The word of format S: OP and S. -/
def wordS (op : BitVec 8) (s : Bool) : Word := layout 0#16 s 0#3 op

/-- The word of format V: OP and IMM16. -/
def wordV (op : BitVec 8) (imm : BitVec 16) : Word := layout imm false 0#3 op

/-- The encoder: the word of a well-formed command (30_encoding.md R70, R71, R76). -/
def encode : Instr → Word
  | .init => wordN 0x01#8
  | .poll => wordN 0x02#8
  | .setLed id s => wordIS 0x10#8 id s
  | .clearLed id => wordI 0x11#8 id
  | .toggleLed id => wordI 0x12#8 id
  | .getLed id => wordI 0x13#8 id
  | .setDisplay v => wordV 0x20#8 (BitVec.ofNat 16 v)
  | .getDisplay => wordN 0x21#8
  | .enableDisplay s => wordS 0x22#8 s
  | .isDisplayEnabled => wordN 0x23#8
  | .setBuzzer s => wordS 0x30#8 s
  | .isBuzzing => wordN 0x31#8
  | .setCelsius s => wordS 0x40#8 s
  | .isCelsius => wordN 0x41#8
  | .getButton id => wordI 0x50#8 id
  | .cToF t => wordV 0x60#8 (BitVec.ofInt 16 t)
  | .fToC t => wordV 0x61#8 (BitVec.ofInt 16 t)

/-- The command word whose bits are the low `nbits` bits of `w`, every bit above them 0, if they fit one word: a command
is exactly one 32-bit word (30_encoding.md R79), and the command port has no byte lanes (20_memory.md R54), so the
table's bit numbers are the word's own. -/
def tableWord (nbits w : Nat) : Option Word :=
  if w % 2 ^ nbits < 2 ^ 32 then some (BitVec.ofNat 32 (w % 2 ^ nbits)) else none

/-- What the decoder reads from an instruction whose bits are `w`, numbered as spec/opcode_table.json numbers them. -/
def decodeTableWord (nbits w : Nat) : Option Instr :=
  match tableWord nbits w with
  | some word => (decode word).toOption
  | none => none

end Sys2Proof
end

