-- ==== Sys2Proof/Config.lean ====
section
/-! DEFINITION. What one SPC fixes at design time (the constant tables) and the free values. -/

namespace Sys2Proof

/-- The constant tables of 10_state.md R34, over the open parameters of 00_scope.md R8: the frame bit of every role and
the twelve segment masks (digits 0..9, then CEL, then FAH; 30_encoding.md R85). -/
structure Tables where
  bitBuzzer : Fin 16
  bitLedActive : Fin 16
  bitLed : Vector (Fin 16) 5
  bitDigit : Vector (Fin 16) 4
  bitBtn : Vector (Fin 16) 7
  segMask : Vector Frame 12
deriving DecidableEq, Repr, Inhabited

/-- The constraints a source imposes on the tables (00_scope.md R9): the LED-active bit is neither the buzzer's nor
LED Power's. Any other two roles may share a bit. -/
def Tables.wf (t : Tables) : Bool :=
  decide (t.bitLedActive ≠ t.bitBuzzer) && decide (t.bitLed[0] ≠ t.bitLedActive)

/-- The tables `t`, with the buzzer bit or LED Power's bit moved to the next position where it would break R9. Tables
that meet R9 are left as they are (`Tables.constrain_of_wf`), so every binding R9 allows can arise. -/
def Tables.constrain (t : Tables) : Tables :=
  { t with
    bitBuzzer := if t.bitBuzzer = t.bitLedActive then t.bitLedActive + 1 else t.bitBuzzer
    bitLed := if t.bitLed[0] = t.bitLedActive then t.bitLed.set 0 (t.bitLedActive + 1) else t.bitLed }

/-- A free value: any tables at all (00_scope.md R8; 92_eei_decisions.md D9, D10 OPEN). Log entry 2. -/
opaque Config.freeTables : Tables

/-- The tables of this SPC: any tables that meet R9 (00_scope.md R8, R9). Log entry 2. -/
def Config.tables : Tables := Config.freeTables.constrain

/-- A free value: what `button[0..6]` hold after the reset that takes draw `n` (10_state.md R27). Log entry 1. -/
opaque Config.freeButtons : Nat → Vector Bool 7

/-- A free value: the level of DIN at the panel action of draw `n`, where the state lists none (60_exceptions.md R215).
Log entry 5. -/
opaque Config.freeDin : Nat → Bool

/-- A free value: the time units that pass at the panel action of draw `n` beyond the nominal ones (60_exceptions.md
R209; 92_eei_decisions.md D11, D12). Log entry 6. -/
opaque Config.freeDelay : Nat → Nat

end Sys2Proof
end

