-- ==== Sys2Proof/Machine/State.lean ====
section
/-! DEFINITION. The state of the machine as plain data, its reset value, and the reasons a step can stop. -/

namespace Sys2Proof.Machine

/-- The level of an output line: Z is "not driven as an output" (10_state.md R32). -/
inductive Level where
  | z | low | high
deriving DecidableEq, Repr

/-- The output lines (10_state.md R32). -/
inductive Line where
  | clk | dout | weN
deriving DecidableEq, Repr

/-- The three primitive panel actions (00_scope.md R14). -/
inductive Action where
  | setLine (line : Line) (value : Bool)
  | wait (n : Nat)
  | sample
deriving DecidableEq, Repr

/-- The status codes of `rsp_status` (60_exceptions.md R201). -/
inductive Status where
  | ok | invalidArgument | outOfBounds | illegalCommand | notInitialized | alreadyInitialized | busy
deriving DecidableEq, Repr

/-- A response: a 3-bit status and 32 bits of data (30_encoding.md R78). -/
structure Response where
  status : BitVec 3
  data : Word
deriving DecidableEq, Repr

/-- What the outside does to the SPC in one step (60_exceptions.md R216, R217; 70_reset_and_hazards.md R231): nothing,
a word presented on the command port, or a reset. -/
inductive HostEvent where
  | quiet
  | word (w : Word)
  | reset
deriving DecidableEq, Repr

/-- Which frame a transfer of a POLL sends (43_poll.md R183, R184): the LED frame, the idle frame, the display frame of a
position, the scan frame of a button. -/
inductive FrameKind where
  | led
  | idle
  | display (position : Fin 4)
  | scan (button : Fin 7)
deriving DecidableEq, Repr

/-- What the sequencer does at one position of the POLL's action list (43_poll.md R180): exactly one panel action each.
The frame shifted, its bit index and the wait count are in the sequencer (10_state.md R35). -/
inductive SeqOp where
  /-- `SetLine(WE_N, 0)`, and the frame of this kind becomes the one being shifted. -/
  | beginTransfer (kind : FrameKind)
  /-- `SetLine(CLK, 0)`, and bit `i` becomes the one being shifted. -/
  | clockLow (i : Nat)
  /-- `Wait` for the count the sequencer holds, which is `n` when it comes here. -/
  | wait (n : Nat)
  /-- `SetLine(DOUT, f[i])`. -/
  | driveData
  /-- `SetLine(CLK, 1)`. -/
  | clockHigh
  /-- `SetLine(WE_N, 1)`. -/
  | endTransfer
  /-- `Sample()`, recorded for this button. -/
  | sample (button : Fin 7)
deriving DecidableEq, Repr

/-- The hidden state of a running POLL (10_state.md R21, R35; 43_poll.md R182). It exists only while `busy = 1`. `todo` is
the model's own: what is left of the action list from `seq` on (log entry 11). -/
structure Sequencer where
  seq : Nat
  idle : Frame
  ledFrame : Frame
  disp : Vector Frame 4
  frame : Frame
  bitIndex : Nat
  waitLeft : Nat
  mask : BitVec 7
  todo : List SeqOp
deriving DecidableEq, Repr

/-- Why a step can stop with a fault. Both are raised only in states that no run from reset reaches. -/
inductive Fault where
  /-- Raised by the host port where `rsp_status` holds the reserved code 7 (60_exceptions.md R201; 93 I12 "a model that
  sees it has a bug: `fault`"). Safe: the SPC never produces it. Log entry 8. -/
  | reservedStatus
  /-- Raised by POLL where `display` is above 999, a value that is never stored (10_state.md R23) and has no digits
  (41_frame_builder.md R122). Safe. Log entry 9. -/
  | displayOutOfRange
deriving DecidableEq, Repr

/-- Why a step can be refused. -/
inductive Refusal where
  /-- Raised by exec's arm for a command that has no meaning yet. Safe: the model stops. No arm raises it now. -/
  | notModelled (mnemonic : String)
deriving DecidableEq, Repr

/-- The state of the SPC (10_state.md), with the model's own fields after it: the host events to come, the DIN levels to
come, the draw counter, the elapsed time and the two histories. -/
structure State where
  /-- `led[0..4]` (R22). -/
  led : Vector Bool 5
  /-- `display` (R23). -/
  display : BitVec 10
  /-- `display_en` (R24). -/
  displayEn : Bool
  /-- `buzzer` (R25). -/
  buzzer : Bool
  /-- `celsius` (R26). -/
  celsius : Bool
  /-- `button[0..6]` (R27). -/
  button : Vector Bool 7
  /-- `initialized` (R29). -/
  initialized : Bool
  /-- The sequencer of the running POLL (R21, R35); `busy` (R30) is that there is one. -/
  poll : Option Sequencer
  /-- `rsp_status` (R31). -/
  rspStatus : BitVec 3
  /-- `rsp_data` (R31). -/
  rspData : Word
  /-- CLK (R32). -/
  clk : Level
  /-- DOUT (R32). -/
  dout : Level
  /-- WE_N (R32). -/
  weN : Level
  /-- DIN is configured as an input (R33, 40_transport.md R100). -/
  dinInput : Bool
  /-- The constant tables (R34). -/
  tables : Tables
  /-- The time base (R37). Log entry 6. -/
  time : Nat
  /-- The model's own: host events to come, oldest first. Log entry 4. -/
  inputs : List HostEvent
  /-- The model's own: DIN levels of the next samples, the next first. Log entry 5. -/
  dinLevels : List Bool
  /-- The model's own: the counter the free values are applied to. Log entries 1, 5, 6. -/
  draws : Nat
  /-- The model's own: the panel actions so far, newest first. Log entry 7. -/
  actions : List Action
  /-- The model's own: the responses so far, newest first. Log entry 7. -/
  responses : List Response
deriving DecidableEq, Repr

/-- `busy` is 1 from the acceptance of a POLL until its response (10_state.md R30). Log entry 10. -/
def State.busy (s : State) : Bool := s.poll.isSome

/-- The SPC right after reset (70_reset_and_hazards.md R230, R232). `button` is a free draw (10_state.md R27), and the
tables are the open parameters (00_scope.md R8). -/
def State.reset : State where
  led := #v[false, false, false, false, false]
  display := 20#10
  displayEn := true
  buzzer := false
  celsius := true
  button := Config.freeButtons 0
  initialized := false
  poll := none
  rspStatus := 0#3
  rspData := 0#32
  clk := .z
  dout := .z
  weN := .z
  dinInput := true
  tables := Config.tables
  time := 0
  inputs := []
  dinLevels := []
  draws := 1
  actions := []
  responses := []

end Sys2Proof.Machine
end

