-- ==== Sys2Proof/Machine/Ops.lean ====
section
/-! DEFINITION. The operations the commands share: ending with a response, raising an error status, a panel action,
the level of DIN, and reset. -/

namespace Sys2Proof.Machine

/-- The 3-bit code of a status (60_exceptions.md R201). -/
def Status.code : Status → BitVec 3
  | .ok => 0#3
  | .invalidArgument => 1#3
  | .outOfBounds => 2#3
  | .illegalCommand => 3#3
  | .notInitialized => 4#3
  | .alreadyInitialized => 5#3
  | .busy => 6#3

/-- A command ends by writing both response registers (10_state.md R31, 30_encoding.md R78). The response also joins the
history of the host port (log entry 7). -/
def respond (status : Status) (data : Word) (s : State) : State :=
  { s with
    rspStatus := status.code
    rspData := data
    responses := ⟨status.code, data⟩ :: s.responses }

/-- `raise <Status>`: the command ends at once with that status and data 0, and nothing else changes (00_scope.md R14,
60_exceptions.md R203). There is no trap to enter and nothing to return from (R206, R207). -/
def raise (status : Status) (s : State) : State := respond status 0#32 s

/-- `return v`: the command ends with status OK and data v (00_scope.md R14). -/
def ret (v : Word) (s : State) : State := respond .ok v s

/-- The level a driven line takes (40_transport.md R103: a bit is driven without inversion). -/
def Level.ofBool (v : Bool) : Level := if v then .high else .low

/-- Drive an output line (00_scope.md R14, `SetLine(L, v)`). -/
def drive (line : Line) (v : Bool) (s : State) : State :=
  match line with
  | .clk => { s with clk := .ofBool v }
  | .dout => { s with dout := .ofBool v }
  | .weN => { s with weN := .ofBool v }

/-- What a panel action does to the lines: only `SetLine` changes one (00_scope.md R14, 10_state.md R32). -/
def onLines (a : Action) (s : State) : State :=
  match a with
  | .setLine line v => drive line v s
  | .wait _ => s
  | .sample => s

/-- The time units a panel action takes at least: `Wait(n)` takes n, every other action 0 (60_exceptions.md R209,
92_eei_decisions.md D12). -/
def nominalTime : Action → Nat
  | .setLine _ _ => 0
  | .wait n => n
  | .sample => 0

/-- A panel action (00_scope.md R14): its effect on the lines, its place in the history, and the time it takes, at least
the nominal time and otherwise a draw (60_exceptions.md R209). -/
def act (a : Action) (s : State) : State :=
  let s' := onLines a s
  { s' with
    actions := a :: s.actions
    time := s.time + (nominalTime a + Config.freeDelay s.draws)
    draws := s.draws + 1 }

/-- The level of DIN at a sample taken now: supplied by the panel (10_state.md R33, 60_exceptions.md R215). -/
def dinLevel (s : State) : Bool :=
  match s.dinLevels with
  | v :: _ => v
  | [] => Config.freeDin s.draws

/-- Reset (70_reset_and_hazards.md R230, R231): every register takes its reset value, a running POLL is abandoned with
no response and no further action, and `button[0..6]` take a fresh draw (10_state.md R27). The constant tables are not
written (R34), and what is no register of the SPC goes on: the environment, the histories and the time. -/
def takeReset (s : State) : State :=
  { State.reset with
    button := Config.freeButtons s.draws
    tables := s.tables
    time := s.time
    inputs := s.inputs
    dinLevels := s.dinLevels
    draws := s.draws + 1
    actions := s.actions
    responses := s.responses }

end Sys2Proof.Machine
end

