-- ==== Sys2Proof/Machine/Flags.lean ====
section
/-! DEFINITION. Reading and writing the boolean state of 10_state.md R28. There are no condition codes and no arithmetic
flags: no command writes any of these as a side effect but as R28 says. -/

namespace Sys2Proof.Machine

/-- `led[l]` (10_state.md R22). -/
def readLed (l : Fin 5) (s : State) : Bool := s.led[l]

/-- `led[l] <- v` (10_state.md R22). -/
def writeLed (l : Fin 5) (v : Bool) (s : State) : State := { s with led := s.led.set l v }

/-- `button[b]` (10_state.md R27). -/
def readButton (b : Fin 7) (s : State) : Bool := s.button[b]

/-- `button[b] <- v` (10_state.md R27, 43_poll.md R185). -/
def writeButton (b : Fin 7) (v : Bool) (s : State) : State := { s with button := s.button.set b v }

/-- `display_en <- v` (10_state.md R24). -/
def writeDisplayEn (v : Bool) (s : State) : State := { s with displayEn := v }

/-- `buzzer <- v` (10_state.md R25). -/
def writeBuzzer (v : Bool) (s : State) : State := { s with buzzer := v }

/-- `celsius <- v` (10_state.md R26). -/
def writeCelsius (v : Bool) (s : State) : State := { s with celsius := v }

/-- `display <- v`, for a v the command has checked to be 0..999 (10_state.md R23). -/
def writeDisplay (v : Nat) (s : State) : State := { s with display := BitVec.ofNat 10 v }

end Sys2Proof.Machine
end

