-- ==== Sys2Proof/Machine/Operands.lean ====
section
/-! DEFINITION. The operands of the commands: identifiers and their range checks, and the data of a response. -/

namespace Sys2Proof.Machine

/-- An LED identifier operand: 0..4 (Power, Filter, Bubble, HeaterGreen, HeaterRed; 00_scope.md R16), and no LED
otherwise (30_encoding.md R73). -/
def ledOperand (id : Nat) : Option (Fin 5) := if h : id < 5 then some ⟨id, h⟩ else none

/-- A button identifier operand: 0..6 (Power, Filter, Bubble, Heat, Up, Down, F/C; 00_scope.md R16), and no button
otherwise (30_encoding.md R73). -/
def buttonOperand (id : Nat) : Option (Fin 7) := if h : id < 7 then some ⟨id, h⟩ else none

/-- `zext_32` of a boolean: true = 1 (00_scope.md R12, 30_encoding.md R78). -/
def boolData (b : Bool) : Word := (BitVec.ofBool b).setWidth 32

/-- `zext_32(display)` (30_encoding.md R78). -/
def displayData (d : BitVec 10) : Word := d.setWidth 32

/-- `zext_32(mask)` (43_poll.md R186). -/
def maskData (m : BitVec 7) : Word := m.setWidth 32

/-- A conversion's result in 32-bit two's complement (30_encoding.md R78). -/
def tempData (t : Int) : Word := BitVec.ofInt 32 t

end Sys2Proof.Machine
end

