-- ==== Sys2Proof/Machine/Buttons.lean ====
section
/-! DEFINITION. GET_BUTTON (42_state_commands.md R155). -/

namespace Sys2Proof.Machine

/-- GET_BUTTON (42_state_commands.md R155): the value the last POLL stored, or before it the reset draw. -/
def execGetButton (id : Nat) (s : State) : Host.Outcome State Fault Refusal :=
  .next (match buttonOperand id with
    | some b => ret (boolData (readButton b s)) s
    | none => raise .outOfBounds s)

end Sys2Proof.Machine
end

