-- ==== Sys2Proof/Machine/Buzzer.lean ====
section
/-! DEFINITION. The buzzer commands (42_state_commands.md R149, R150). -/

namespace Sys2Proof.Machine

/-- SET_BUZZER (42_state_commands.md R149). -/
def execSetBuzzer (state : Bool) (s : State) : Host.Outcome State Fault Refusal :=
  .next (ret 0#32 (writeBuzzer state s))

/-- IS_BUZZING (42_state_commands.md R150). -/
def execIsBuzzing (s : State) : Host.Outcome State Fault Refusal := .next (ret (boolData s.buzzer) s)

end Sys2Proof.Machine
end

