-- ==== Sys2Proof/Machine/Convert.lean ====
section
/-! DEFINITION. The unit conversions and their two commands (42_state_commands.md R151, R152, R156, R157). -/

namespace Sys2Proof.Machine

/-- `rha(n, d)`: n/d rounded to the nearest integer, ties away from zero, for d > 0 (00_scope.md R15). The division of
Int rounds to the floor for a positive divisor. -/
def rha (n d : Int) : Int :=
  if 0 ≤ n then (2 * n + d) / (2 * d) else -((2 * -n + d) / (2 * d))

/-- C2F(t), Celsius to Fahrenheit (42_state_commands.md R151). -/
def c2f (t : Int) : Int := rha (9 * t + 160) 5

/-- F2C(t), Fahrenheit to Celsius (42_state_commands.md R152). -/
def f2c (t : Int) : Int := rha (5 * (t - 32)) 9

/-- C_TO_F (42_state_commands.md R156). -/
def execCToF (t : Int) (s : State) : Host.Outcome State Fault Refusal := .next (ret (tempData (c2f t)) s)

/-- F_TO_C (42_state_commands.md R157). -/
def execFToC (t : Int) (s : State) : Host.Outcome State Fault Refusal := .next (ret (tempData (f2c t)) s)

end Sys2Proof.Machine
end

