-- ==== Sys2Proof/Machine/Params.lean ====
section
/-! DEFINITION. The constants the source fixes (00_scope.md R7, R17) and the nominal delays (R10, R18). -/

namespace Sys2Proof.Machine

/-- The largest legal value of `display` (00_scope.md R7, DISPLAY_MAX; 10_state.md R23). -/
def displayMax : Nat := 999

/-- The refresh passes of a POLL (00_scope.md R7, N_PASSES). -/
def nPasses : Nat := 5

/-- The bits of a frame in the order they are sent, least significant first (00_scope.md R7; 40_transport.md R102). -/
def bitOrder : List Nat := [0, 1, 2, 3, 4, 5, 6, 7, 8, 9, 10, 11, 12, 13, 14, 15]

/-- The LED identifiers in order (00_scope.md R16). -/
def ledIds : List (Fin 5) := [0, 1, 2, 3, 4]

/-- The display positions in the refresh order: Hundreds, Tens, Units, UnitIndicator (00_scope.md R7, R16). -/
def positions : List (Fin 4) := [0, 1, 2, 3]

/-- SCAN_ORDER: Filter, Heat, Up, Down, Bubble, Power, F/C (00_scope.md R17). -/
def scanOrder : List (Fin 7) := [1, 3, 4, 5, 2, 0, 6]

/-- Nominal T_CLK_LOW, clock low to data change (00_scope.md R10). -/
def tClkLow : Nat := 5

/-- Nominal T_DATA_SETUP, data change to clock rise (00_scope.md R10). -/
def tDataSetup : Nat := 2

/-- Nominal T_CLK_HIGH, after clock rise (00_scope.md R10). -/
def tClkHigh : Nat := 3

/-- Nominal T_SETTLE, the settle delay (00_scope.md R10). -/
def tSettle : Nat := 260

/-- Nominal T_SAMPLE, scan frame end to input sample (00_scope.md R10). -/
def tSample : Nat := 5

end Sys2Proof.Machine
end

