-- ==== Sys2Proof/Machine/Display.lean ====
section
/-! DEFINITION. The display commands (42_state_commands.md R145 to R148). -/

namespace Sys2Proof.Machine

/-- SET_DISPLAY (42_state_commands.md R145): a value above 999 is rejected. -/
def execSetDisplay (v : Nat) (s : State) : Host.Outcome State Fault Refusal :=
  .next (if displayMax < v then raise .invalidArgument s else ret 0#32 (writeDisplay v s))

/-- GET_DISPLAY (42_state_commands.md R146). -/
def execGetDisplay (s : State) : Host.Outcome State Fault Refusal := .next (ret (displayData s.display) s)

/-- ENABLE_DISPLAY (42_state_commands.md R147). -/
def execEnableDisplay (state : Bool) (s : State) : Host.Outcome State Fault Refusal :=
  .next (ret 0#32 (writeDisplayEn state s))

/-- IS_DISPLAY_ENABLED (42_state_commands.md R148). -/
def execIsDisplayEnabled (s : State) : Host.Outcome State Fault Refusal := .next (ret (boolData s.displayEn) s)

end Sys2Proof.Machine
end

