-- ==== Sys2Proof/Machine/Leds.lean ====
section
/-! DEFINITION. The LED commands (42_state_commands.md R141 to R144). -/

namespace Sys2Proof.Machine

/-- An LED command: `if ID > 4 then raise OUT_OF_BOUNDS(ID)`, else `k` on the LED (42_state_commands.md R141 to R144). -/
def onLed (id : Nat) (k : Fin 5 → State → State) (s : State) : State :=
  match ledOperand id with
  | some l => k l s
  | none => raise .outOfBounds s

/-- SET_LED (42_state_commands.md R141). -/
def execSetLed (id : Nat) (state : Bool) (s : State) : Host.Outcome State Fault Refusal :=
  .next (onLed id (fun l s => ret 0#32 (writeLed l state s)) s)

/-- CLEAR_LED (42_state_commands.md R142). -/
def execClearLed (id : Nat) (s : State) : Host.Outcome State Fault Refusal :=
  .next (onLed id (fun l s => ret 0#32 (writeLed l false s)) s)

/-- TOGGLE_LED (42_state_commands.md R143): `led[ID] <- 1 - led[ID]`. -/
def execToggleLed (id : Nat) (s : State) : Host.Outcome State Fault Refusal :=
  .next (onLed id (fun l s => ret 0#32 (writeLed l (!readLed l s) s)) s)

/-- GET_LED (42_state_commands.md R144). -/
def execGetLed (id : Nat) (s : State) : Host.Outcome State Fault Refusal :=
  .next (onLed id (fun l s => ret (boolData (readLed l s)) s) s)

end Sys2Proof.Machine
end

