-- ==== Sys2Proof/Machine/Frames.lean ====
section
/-! DEFINITION. The frame builder and the segment encoder (41_frame_builder.md R120 to R130). -/

namespace Sys2Proof.Machine

/-- `clr(f, k)`: assert the signal at bit k by clearing it (00_scope.md R13). -/
def clr (f : Frame) (k : Fin 16) : Frame := f &&& ~~~(1#16 <<< k.val)

/-- `clrm(f, m)`: assert every signal of mask m (00_scope.md R13). -/
def clrm (f m : Frame) : Frame := f &&& ~~~m

/-- IDLE(bz): every bit 1, but the buzzer bit where the buzzer sounds (41_frame_builder.md R120). -/
def idleFrame (t : Tables) (bz : Bool) : Frame := if bz then clr 0xFFFF#16 t.bitBuzzer else 0xFFFF#16

/-- LED_FRAME(bz, led): the bit of each LED that is on, and always the LED-active bit (41_frame_builder.md R121). -/
def ledFrame (t : Tables) (bz : Bool) (led : Vector Bool 5) : Frame :=
  clr (ledIds.foldl (fun f l => if led[l] then clr f t.bitLed[l] else f) (idleFrame t bz)) t.bitLedActive

/-- DIGITS(v) at a digit position: hundreds, tens, units (41_frame_builder.md R122). Position 3 is no digit. -/
def digit (v : Nat) (p : Fin 4) : Nat :=
  match p with
  | 0 => v / 100
  | 1 => v / 10 % 10
  | 2 => v % 10
  | 3 => 0

/-- The glyphs of the segment table (30_encoding.md R85). -/
inductive Glyph where
  | digit (d : Nat)
  | cel
  | fah
deriving DecidableEq, Repr

/-- A glyph's place in the segment table: the digits, then CEL, then FAH. A digit is 0..9 wherever POLL builds a frame
(41_frame_builder.md R122, R123). -/
def Glyph.index : Glyph → Fin 12
  | .digit d => Fin.ofNat 12 d
  | .cel => 10
  | .fah => 11

/-- SEG(g): the mask of the frame bits to clear (41_frame_builder.md R123). -/
def seg (t : Tables) (g : Glyph) : Frame := t.segMask[g.index]

/-- The frame of a display position before its digit-select bit: the unit indicator always, a digit only where the
display is enabled (41_frame_builder.md R124, R128, R129). -/
def glyphFrame (t : Tables) (bz : Bool) (display : Nat) (en cel : Bool) (p : Fin 4) : Frame :=
  if p = 3 then clrm (idleFrame t bz) (seg t (if cel then .cel else .fah))
  else if en then clrm (idleFrame t bz) (seg t (.digit (digit display p)))
  else idleFrame t bz

/-- DISPLAY_FRAME(p) (41_frame_builder.md R124). -/
def displayFrame (t : Tables) (bz : Bool) (display : Nat) (en cel : Bool) (p : Fin 4) : Frame :=
  clr (glyphFrame t bz display en cel p) t.bitDigit[p]

/-- SCAN_FRAME(b): the idle frame with the button's select bit cleared (41_frame_builder.md R126). -/
def scanFrame (t : Tables) (idle : Frame) (b : Fin 7) : Frame := clr idle t.bitBtn[b]

/-- The idle frame of the present state (41_frame_builder.md R120). -/
def State.idleNow (s : State) : Frame := idleFrame s.tables s.buzzer

/-- The LED frame of the present state (41_frame_builder.md R121). -/
def State.ledNow (s : State) : Frame := ledFrame s.tables s.buzzer s.led

/-- The display frame of a position in the present state (41_frame_builder.md R124). -/
def State.displayNow (s : State) (p : Fin 4) : Frame :=
  displayFrame s.tables s.buzzer s.display.toNat s.displayEn s.celsius p

end Sys2Proof.Machine
end

