-- ==== Sys2Proof/Machine/Transport.lean ====
section
/-! DEFINITION. The transport: INIT (40_transport.md R100) and the sequencer operations of TRANSFER (R101) and SAMPLE
(R108), which only a POLL uses. -/

namespace Sys2Proof.Machine

/-- The line initialisation of INIT: CLK, DOUT, WE_N to 1 in this order, DIN an input (40_transport.md R100). -/
def initLines (s : State) : State :=
  let s := act (.setLine .weN true) (act (.setLine .dout true) (act (.setLine .clk true) s))
  { s with dinInput := true }

/-- INIT (40_transport.md R100). -/
def execInit (s : State) : Host.Outcome State Fault Refusal :=
  .next (if s.initialized then raise .alreadyInitialized s
    else ret 0#32 { initLines s with initialized := true })

/-- One bit of a TRANSFER: six actions (40_transport.md R101). -/
def bitOps (i : Nat) : List SeqOp :=
  [.clockLow i, .wait tClkLow, .driveData, .wait tDataSetup, .clockHigh, .wait tClkHigh]

/-- TRANSFER of a frame: 98 actions (40_transport.md R101). -/
def transferOps (kind : FrameKind) : List SeqOp :=
  .beginTransfer kind :: (bitOrder.flatMap bitOps ++ [.endTransfer])

end Sys2Proof.Machine
end

