-- ==== Sys2Proof/Machine/Poll.lean ====
section
/-! DEFINITION. POLL and the sequencer that runs it (43_poll.md R180 to R191). -/

namespace Sys2Proof.Machine

/-- The idle frame, then a position's display frame, then the settle delay (43_poll.md R183 (b)). -/
def positionOps (p : Fin 4) : List SeqOp :=
  transferOps .idle ++ (transferOps (.display p) ++ [.wait tSettle])

/-- One refresh pass (43_poll.md R183): 986 actions. -/
def passOps : List SeqOp :=
  transferOps .led ++ (.wait tSettle :: (positions.flatMap positionOps ++ (transferOps .idle ++ [.wait tSettle])))

/-- The scan of one button (43_poll.md R184): 100 actions. -/
def scanOps (b : Fin 7) : List SeqOp := transferOps (.scan b) ++ [.wait tSample, .sample b]

/-- The fixed sequence of a POLL (43_poll.md R180; 20_memory.md R63): five passes, then the scan. 5630 actions (R188). -/
def pollProgram : List SeqOp := (List.replicate nPasses passOps).flatten ++ scanOrder.flatMap scanOps

/-- The wait count of the action at the head of a list: that of a `Wait`, 0 for another action (10_state.md R35). -/
def headWait : List SeqOp → Nat
  | .wait n :: _ => n
  | _ => 0

/-- The sequencer at the start of a POLL (43_poll.md R180, R182): position 0, every frame built from the state now, the
mask 0. The frame being shifted is loaded by the first action (log entry 11). -/
def startSequencer (s : State) : Sequencer where
  seq := 0
  idle := s.idleNow
  ledFrame := s.ledNow
  disp := #v[s.displayNow 0, s.displayNow 1, s.displayNow 2, s.displayNow 3]
  frame := s.ledNow
  bitIndex := 0
  waitLeft := headWait pollProgram
  mask := 0#7
  todo := pollProgram

/-- POLL (43_poll.md R180): refused before INIT (R181). Otherwise it is accepted: `busy` becomes 1 and the sequencer
starts. Its actions are the steps that follow (`runSequencer`), and its response comes after the last of them (R187).
A `display` above 999 has no digits and is never stored (10_state.md R23): log entry 9. -/
def execPoll (s : State) : Host.Outcome State Fault Refusal :=
  if s.initialized then
    if displayMax < s.display.toNat then .fault .displayOutOfRange
    else .next { s with poll := some (startSequencer s) }
  else .next (raise .notInitialized s)

/-- The frame a transfer of the POLL sends: a snapshot frame, or the snapshot idle frame with a button's select bit
cleared (43_poll.md R182 to R184; 41_frame_builder.md R126). -/
def Sequencer.pick (p : Sequencer) (t : Tables) (kind : FrameKind) : Frame :=
  match kind with
  | .led => p.ledFrame
  | .idle => p.idle
  | .display position => p.disp[position]
  | .scan b => scanFrame t p.idle b

/-- The panel action the sequencer performs for an operation (40_transport.md R101, R108; 43_poll.md R180). -/
def Sequencer.action (p : Sequencer) : SeqOp → Action
  | .beginTransfer _ => .setLine .weN false
  | .clockLow _ => .setLine .clk false
  | .wait _ => .wait p.waitLeft
  | .driveData => .setLine .dout (p.frame.getLsbD p.bitIndex)
  | .clockHigh => .setLine .clk true
  | .endTransfer => .setLine .weN true
  | .sample _ => .sample

/-- `if pressed then mask <- mask | (1 << b)` (43_poll.md R180, R186). -/
def markPressed (b : Fin 7) (pressed : Bool) (mask : BitVec 7) : BitVec 7 :=
  if pressed then mask ||| (1#7 <<< b.val) else mask

/-- What an operation changes in the sequencer besides its position: the frame and the bit being shifted (40_transport.md
R101), or the mask, with `pressed` the inverse of the DIN sample (43_poll.md R184). -/
def Sequencer.update (p : Sequencer) (t : Tables) (din : Bool) : SeqOp → Sequencer
  | .beginTransfer kind => { p with frame := p.pick t kind, bitIndex := 0 }
  | .clockLow i => { p with bitIndex := i }
  | .sample b => { p with mask := markPressed b (!din) p.mask }
  | .wait _ => p
  | .driveData => p
  | .clockHigh => p
  | .endTransfer => p

/-- What a sample stores: the button's register, and the level the panel supplied is used up (43_poll.md R184, R185;
60_exceptions.md R215). -/
def store (op : SeqOp) (din : Bool) (s : State) : State :=
  match op with
  | .sample b => { writeButton b (!din) s with dinLevels := s.dinLevels.tail }
  | .beginTransfer _ => s
  | .clockLow _ => s
  | .wait _ => s
  | .driveData => s
  | .clockHigh => s
  | .endTransfer => s

/-- The sequencer goes on to the next action: `seq` advances by one (10_state.md R21), and the wait count is that of the
action it comes to. -/
def Sequencer.advance (p : Sequencer) (rest : List SeqOp) : Sequencer :=
  { p with seq := p.seq + 1, todo := rest, waitLeft := headWait rest }

/-- The end of a POLL (43_poll.md R180): `busy <- 0`, and the response is OK with the mask (R186, R187). -/
def finishPoll (p : Sequencer) (s : State) : State := ret (maskData p.mask) { s with poll := none }

/-- The POLL goes on, or ends after its last action (43_poll.md R187, R188). -/
def settle (p : Sequencer) (s : State) : State :=
  match p.todo with
  | [] => finishPoll p s
  | _ :: _ => { s with poll := some p }

/-- One step of a running POLL: its next action (43_poll.md R180; 20_memory.md R60). -/
def runSequencer (p : Sequencer) (s : State) : State :=
  match p.todo with
  | [] => finishPoll p s
  | op :: rest =>
    settle ((p.update s.tables (dinLevel s) op).advance rest)
      (store op (dinLevel s) (act (p.action op) s))

end Sys2Proof.Machine
end

