-- ==== Sys2Proof/Machine/Unit.lean ====
section
/-! DEFINITION. The unit commands (42_state_commands.md R153, R154). -/

namespace Sys2Proof.Machine

/-- The stored display value converted to the unit `state` names (42_state_commands.md R153). -/
def rescaled (state : Bool) (s : State) : Int :=
  if state then f2c s.display.toNat else c2f s.display.toNat

/-- SET_CELSIUS (42_state_commands.md R153): no effect where the unit does not change. Otherwise the display value is
converted, and rejected with neither register changed where the result is outside 0..999 (90_conflicts.md C1, C5). -/
def execSetCelsius (state : Bool) (s : State) : Host.Outcome State Fault Refusal :=
  .next (if state = s.celsius then ret 0#32 s
    else if rescaled state s < 0 ∨ (displayMax : Int) < rescaled state s then raise .invalidArgument s
    else ret 0#32 (writeCelsius state (writeDisplay (rescaled state s).toNat s)))

/-- IS_CELSIUS (42_state_commands.md R154). -/
def execIsCelsius (s : State) : Host.Outcome State Fault Refusal := .next (ret (boolData s.celsius) s)

end Sys2Proof.Machine
end

