-- ==== Sys2Proof/Machine/Dispatch.lean ====
section
/-! DEFINITION. What an accepted command does: one arm per constructor of Instr, each a call of its meaning. -/

namespace Sys2Proof.Machine

def exec (i : Instr) (s : State) : Host.Outcome State Fault Refusal :=
  match i with
  | .init => Sys2Proof.Machine.execInit s
  | .poll => Sys2Proof.Machine.execPoll s
  | .setLed id state => Sys2Proof.Machine.execSetLed id state s
  | .clearLed id => Sys2Proof.Machine.execClearLed id s
  | .toggleLed id => Sys2Proof.Machine.execToggleLed id s
  | .getLed id => Sys2Proof.Machine.execGetLed id s
  | .setDisplay v => Sys2Proof.Machine.execSetDisplay v s
  | .getDisplay => Sys2Proof.Machine.execGetDisplay s
  | .enableDisplay state => Sys2Proof.Machine.execEnableDisplay state s
  | .isDisplayEnabled => Sys2Proof.Machine.execIsDisplayEnabled s
  | .setBuzzer state => Sys2Proof.Machine.execSetBuzzer state s
  | .isBuzzing => Sys2Proof.Machine.execIsBuzzing s
  | .setCelsius state => Sys2Proof.Machine.execSetCelsius state s
  | .isCelsius => Sys2Proof.Machine.execIsCelsius s
  | .getButton id => Sys2Proof.Machine.execGetButton id s
  | .cToF t => Sys2Proof.Machine.execCToF t s
  | .fToC t => Sys2Proof.Machine.execFToC t s

end Sys2Proof.Machine
end

