-- ==== Sys2Proof/Machine/Port.lean ====
section
/-! DEFINITION. The host port (60_exceptions.md R204, R216, R217): what one host event does. -/

namespace Sys2Proof.Machine

/-- A word on the command port (60_exceptions.md R204): BUSY first, and then the word is not decoded (R217); then
ILLEGAL_COMMAND (R202); then the command. -/
def presentWord (w : Word) (s : State) : Host.Outcome State Fault Refusal :=
  if s.busy then .next (raise .busy s)
  else match decode w with
    | .ok i => exec i s
    | .error _ => .next (raise .illegalCommand s)

/-- A step in which the host presents nothing: a running POLL performs its next action (43_poll.md R180), and an idle SPC
holds every register and line (60_exceptions.md R211). -/
def quietStep (s : State) : Host.Outcome State Fault Refusal :=
  match s.poll with
  | some p => .next (runSequencer p s)
  | none => .next s

/-- The status code 7 is reserved and never produced (60_exceptions.md R201): a step that finds it stops (log entry 8). -/
def guarded (s : State) (k : State → Host.Outcome State Fault Refusal) : Host.Outcome State Fault Refusal :=
  if s.rspStatus = 7#3 then .fault .reservedStatus else k s

/-- What one host event does. Reset takes precedence over everything (60_exceptions.md R204, 70_reset_and_hazards.md
R231). -/
def onEvent (e : HostEvent) (s : State) : Host.Outcome State Fault Refusal :=
  match e with
  | .reset => .next (takeReset s)
  | .word w => guarded s (presentWord w)
  | .quiet => guarded s quietStep

/-- The host event of this step and the state with it taken off the list. Where none is listed, nothing is presented. -/
def takeEvent (s : State) : HostEvent × State :=
  match s.inputs with
  | e :: rest => (e, { s with inputs := rest })
  | [] => (.quiet, s)

/-- The state in which the host presents this word next, to an SPC that is not busy (60_exceptions.md R216). -/
def placeWord (w : Word) (s : State) : State := { s with inputs := .word w :: s.inputs, poll := none }

end Sys2Proof.Machine
end

