-- ==== Sys2Proof/Machine/Step.lean ====
section
/-! DEFINITION. One step of the machine: the next host event, or else the running POLL's next action. -/

namespace Sys2Proof.Machine

/-- One step (20_memory.md R59, R60; 60_exceptions.md R216, R217; 70_reset_and_hazards.md R231). -/
def step (s : State) : Host.Outcome State Fault Refusal := onEvent (takeEvent s).1 (takeEvent s).2

/-- `s` with the command word whose bits are the low `nbits` bits of `w` (every bit above them 0) presented by the host in
the next step, to an SPC that is not busy: a word is executed only where `busy = 0` (60_exceptions.md R216). Log entry 4. -/
def State.withFetchWord (s : State) (nbits w : Nat) : State := placeWord (BitVec.ofNat 32 (w % 2 ^ nbits)) s

end Sys2Proof.Machine
end

