-- ==== Sys2Proof/Machine/Assembler.lean ====
section
/-! DEFINITION. The assembler notation (30_encoding.md R80 to R82): a mnemonic and its operands, already cut into
tokens, to a command. -/

namespace Sys2Proof.Machine

/-- An operand as written: an identifier name, a decimal integer with optional sign, or a `0x` hexadecimal integer
(30_encoding.md R80). -/
inductive AsmOperand where
  | name (text : String)
  | dec (z : Int)
  | hex (n : Nat)
deriving DecidableEq, Repr

/-- The LED names, with the alias Heater (30_encoding.md R81). -/
def ledNames : List (String × Nat) :=
  [("Power", 0), ("Filter", 1), ("Bubble", 2), ("HeaterGreen", 3), ("Heater", 3), ("HeaterRed", 4)]

/-- The button names (30_encoding.md R81). -/
def buttonNames : List (String × Nat) :=
  [("Power", 0), ("Filter", 1), ("Bubble", 2), ("Heat", 3), ("Up", 4), ("Down", 5), ("FahrenheitCelsius", 6)]

/-- A number that lies in a range (30_encoding.md R80: it "must fit the field"). -/
def within (lo hi z : Int) : Option Int := if lo ≤ z ∧ z ≤ hi then some z else none

/-- The operand ID: an identifier name or its number 0..7 (30_encoding.md R80). DESIGN CHOICE, log entry 21: R80 does not
say how the number is written; it is taken in decimal or in hexadecimal. -/
def asmId (names : List (String × Nat)) : AsmOperand → Option Nat
  | .name text => (names.find? (fun entry => entry.1 == text)).map Prod.snd
  | .dec z => (within 0 7 z).map Int.toNat
  | .hex n => (within 0 7 n).map Int.toNat

/-- The operand S: `0` or `1` (30_encoding.md R80). DESIGN CHOICE, log entry 21: a hexadecimal S is rejected. -/
def asmState : AsmOperand → Option Bool
  | .dec z => if z = 0 then some false else if z = 1 then some true else none
  | .name _ => none
  | .hex _ => none

/-- IMM16 of SET_DISPLAY: 0..65535 (30_encoding.md R80). -/
def asmValue : AsmOperand → Option Nat
  | .dec z => (within 0 65535 z).map Int.toNat
  | .hex n => (within 0 65535 n).map Int.toNat
  | .name _ => none

/-- IMM16 of the conversions: -32768..32767, or any 16-bit pattern written in hex (30_encoding.md R80). -/
def asmTemp : AsmOperand → Option Int
  | .dec z => within (-32768) 32767 z
  | .hex n => (within 0 65535 n).map (fun z => (BitVec.ofInt 16 z).toInt)
  | .name _ => none

/-- The command a line stands for: `MNEMONIC operand, operand` with the operands in the order ID, S (30_encoding.md R80),
and the default S = 1 of SET_LED, ENABLE_DISPLAY and SET_BUZZER (R82). -/
def assemble (mnemonic : String) (operands : List AsmOperand) : Option Instr :=
  match mnemonic, operands with
  | "INIT", [] => some .init
  | "POLL", [] => some .poll
  | "SET_LED", [id] => (asmId ledNames id).map (fun n => .setLed n true)
  | "SET_LED", [id, state] => (asmId ledNames id).bind (fun n => (asmState state).map (fun b => .setLed n b))
  | "CLEAR_LED", [id] => (asmId ledNames id).map .clearLed
  | "TOGGLE_LED", [id] => (asmId ledNames id).map .toggleLed
  | "GET_LED", [id] => (asmId ledNames id).map .getLed
  | "SET_DISPLAY", [v] => (asmValue v).map .setDisplay
  | "GET_DISPLAY", [] => some .getDisplay
  | "ENABLE_DISPLAY", [] => some (.enableDisplay true)
  | "ENABLE_DISPLAY", [state] => (asmState state).map .enableDisplay
  | "IS_DISPLAY_ENABLED", [] => some .isDisplayEnabled
  | "SET_BUZZER", [] => some (.setBuzzer true)
  | "SET_BUZZER", [state] => (asmState state).map .setBuzzer
  | "IS_BUZZING", [] => some .isBuzzing
  | "SET_CELSIUS", [state] => (asmState state).map .setCelsius
  | "IS_CELSIUS", [] => some .isCelsius
  | "GET_BUTTON", [id] => (asmId buttonNames id).map .getButton
  | "C_TO_F", [t] => (asmTemp t).map .cToF
  | "F_TO_C", [t] => (asmTemp t).map .fToC
  | _, _ => none

end Sys2Proof.Machine
end

