-- ==== Sys2Proof/WellFormed.lean ====
section
/-! DEFINITION. Which terms of Instr a command word can hold: each operand fits its field. -/

namespace Sys2Proof

/-- An identifier operand fits the 3-bit field ID (30_encoding.md R70, R73). Whether the identifier EXISTS is the
command's own check, at execution (R73). -/
def idFits (id : Nat) : Bool := decide (id ≤ 7)

/-- SET_DISPLAY's operand fits the 16-bit field read unsigned (30_encoding.md R75, R80). -/
def valueFits (v : Nat) : Bool := decide (v ≤ 65535)

/-- A conversion's operand fits the 16-bit field read signed (30_encoding.md R75, R80). -/
def tempFits (t : Int) : Bool := decide (-32768 ≤ t ∧ t ≤ 32767)

/-- The operands of a command fit the fields of its format (30_encoding.md R70, R71). -/
def Instr.wellFormed : Instr → Bool
  | .init => true
  | .poll => true
  | .setLed id _ => idFits id
  | .clearLed id => idFits id
  | .toggleLed id => idFits id
  | .getLed id => idFits id
  | .setDisplay v => valueFits v
  | .getDisplay => true
  | .enableDisplay _ => true
  | .isDisplayEnabled => true
  | .setBuzzer _ => true
  | .isBuzzing => true
  | .setCelsius _ => true
  | .isCelsius => true
  | .getButton id => idFits id
  | .cToF t => tempFits t
  | .fToC t => tempFits t

end Sys2Proof
end

