-- ==== Sys2Proof/Safety.lean ====
section
/-! DEFINITION. The terms the claims are stated in: the response of a command, the invariant of the machine, the action
list of a POLL as the spec lists it, its whole effect, and what the panel sees of it. -/

namespace Sys2Proof.Safety

open Sys2Proof.Machine

/-- `s` with both response registers written, and nothing else of the SPC (30_encoding.md R78, 60_exceptions.md R203). -/
def answered (status : BitVec 3) (data : Word) (s : State) : State :=
  { s with rspStatus := status, rspData := data, responses := ⟨status, data⟩ :: s.responses }

/-- The device-state registers of two states agree (10_state.md section 2). -/
structure SameDevice (s t : State) : Prop where
  led : t.led = s.led
  display : t.display = s.display
  displayEn : t.displayEn = s.displayEn
  buzzer : t.buzzer = s.buzzer
  celsius : t.celsius = s.celsius
  button : t.button = s.button

/-- The panel port of two states agrees: lines, history, time, and the supply of DIN levels. -/
structure SamePanel (s t : State) : Prop where
  clk : t.clk = s.clk
  dout : t.dout = s.dout
  weN : t.weN = s.weN
  dinInput : t.dinInput = s.dinInput
  actions : t.actions = s.actions
  time : t.time = s.time
  draws : t.draws = s.draws
  dinLevels : t.dinLevels = s.dinLevels

/-- The response registers of two states agree, and no response was given. -/
structure SameResponse (s t : State) : Prop where
  rspStatus : t.rspStatus = s.rspStatus
  rspData : t.rspData = s.rspData
  responses : t.responses = s.responses

/-- In the next `n` steps the host presents nothing: the events it has listed for them, if any, are quiet ones
(60_exceptions.md R216; log entry 4). -/
def QuietFor (n : Nat) (s : State) : Prop := ∀ e ∈ s.inputs.take n, e = HostEvent.quiet

/-- The level CLK has after the operations of a list, if it is `c` before. -/
def endClk (c : Level) : List SeqOp → Level
  | [] => c
  | .clockLow _ :: rest => endClk .low rest
  | .clockHigh :: rest => endClk .high rest
  | _ :: rest => endClk c rest

/-- The level WE_N has after the operations of a list, if it is `w` before. -/
def endWeN (w : Level) : List SeqOp → Level
  | [] => w
  | .beginTransfer _ :: rest => endWeN .low rest
  | .endTransfer :: rest => endWeN .high rest
  | _ :: rest => endWeN w rest

/-- A sequencer in a state of a run (10_state.md R21, R35; 43_poll.md R182, R188): its position is inside the action list,
what is left is the list from there on, the wait count is that of its action, the snapshot frames are those of the
present device state, and the lines will end idle. -/
structure SequencerOk (s : State) (p : Sequencer) : Prop where
  initialized : s.initialized = true
  seq_lt : p.seq < 5630
  todo_eq : p.todo = pollProgram.drop p.seq
  wait_eq : p.waitLeft = headWait p.todo
  idle_eq : p.idle = s.idleNow
  led_eq : p.ledFrame = s.ledNow
  disp_eq : ∀ q : Fin 4, p.disp[q] = s.displayNow q
  clk_end : endClk s.clk p.todo = .high
  weN_end : endWeN s.weN p.todo = .high

/-- The invariant of the machine. `display` is a legal value (10_state.md R23), the reserved status is not there
(60_exceptions.md R201), the tables meet 00_scope.md R9, the lines are Z before INIT and driven after it (10_state.md R32),
idle high between POLLs (40_transport.md R104), and a running POLL is in order. -/
structure Inv (s : State) : Prop where
  display_le : s.display.toNat ≤ 999
  status_ne : s.rspStatus ≠ 7#3
  tables_wf : s.tables.wf = true
  din_input : s.dinInput = true
  before_init : s.initialized = false → s.clk = .z ∧ s.dout = .z ∧ s.weN = .z ∧ s.poll = none
  after_init : s.initialized = true → s.clk ≠ .z ∧ s.dout ≠ .z ∧ s.weN ≠ .z
  idle_lines : s.initialized = true → s.poll = none → s.clk = .high ∧ s.weN = .high
  running : ∀ p, s.poll = some p → SequencerOk s p

/-- The mask of a running POLL holds the buttons sampled so far, and nothing of the others (43_poll.md R185, R186). -/
def MaskTracks (s : State) : Prop :=
  ∀ p, s.poll = some p → ∀ b : Fin 7,
    (SeqOp.sample b ∈ p.todo → p.mask.getLsbD b.val = false) ∧
    (SeqOp.sample b ∉ p.todo → p.mask.getLsbD b.val = s.button[b])

/-- The six actions of frame bit `v` (40_transport.md R101). -/
def bitActions (v : Bool) : List Action :=
  [.setLine .clk false, .wait 5, .setLine .dout v, .wait 2, .setLine .clk true, .wait 3]

/-- The bits of a frame in the order they are sent (40_transport.md R102). -/
def frameBits (f : Frame) : List Bool := (List.range 16).map f.getLsbD

/-- The action list of TRANSFER(f) (40_transport.md R101). -/
def transferActions (f : Frame) : List Action :=
  .setLine .weN false :: ((frameBits f).flatMap bitActions ++ [.setLine .weN true])

/-- The actions of one refresh pass in the present state (43_poll.md R183). -/
def passActions (s : State) : List Action :=
  transferActions s.ledNow ++ [.wait 260] ++
  transferActions s.idleNow ++ transferActions (s.displayNow 0) ++ [.wait 260] ++
  transferActions s.idleNow ++ transferActions (s.displayNow 1) ++ [.wait 260] ++
  transferActions s.idleNow ++ transferActions (s.displayNow 2) ++ [.wait 260] ++
  transferActions s.idleNow ++ transferActions (s.displayNow 3) ++ [.wait 260] ++
  transferActions s.idleNow ++ [.wait 260]

/-- The actions of the scan of one button in the present state (43_poll.md R184). -/
def scanActions (s : State) (b : Fin 7) : List Action :=
  transferActions (scanFrame s.tables s.idleNow b) ++ [.wait 5, .sample]

/-- The action list of a POLL started in this state (43_poll.md R180), in order. -/
def pollActions (s : State) : List Action :=
  passActions s ++ passActions s ++ passActions s ++ passActions s ++ passActions s ++
  scanActions s 1 ++ scanActions s 3 ++ scanActions s 4 ++ scanActions s 5 ++ scanActions s 2 ++ scanActions s 0 ++
  scanActions s 6

/-- The frames of a POLL started in this state, in the order they are sent (43_poll.md R183, R184, R189). -/
def pollFrames (s : State) : List Frame :=
  let pass := [s.ledNow, s.idleNow, s.displayNow 0, s.idleNow, s.displayNow 1, s.idleNow, s.displayNow 2, s.idleNow,
    s.displayNow 3, s.idleNow]
  pass ++ pass ++ pass ++ pass ++ pass ++ scanOrder.map (scanFrame s.tables s.idleNow)

/-- The DIN level of the k-th sample of a POLL started in this state (60_exceptions.md R215): the k-th the panel supplies,
or a free draw. The k-th sample is action 5029 + 100k (43_poll.md R188). -/
def pollSample (s : State) (k : Nat) : Bool :=
  match s.dinLevels[k]? with
  | some v => v
  | none => Config.freeDin (s.draws + (5029 + 100 * k))

/-- What the seven buttons are after a POLL started in this state, Power first: pressed where the sample is 0. They are
sampled in the order 1, 3, 4, 5, 2, 0, 6 (43_poll.md R184, R185). -/
def pollButtons (s : State) : Vector Bool 7 :=
  #v[!pollSample s 5, !pollSample s 0, !pollSample s 4, !pollSample s 1, !pollSample s 2, !pollSample s 3,
    !pollSample s 6]

/-- The mask of a POLL: bit b is button b (43_poll.md R186). -/
def buttonMask (v : Vector Bool 7) : Word :=
  BitVec.ofNat 32 (v[0].toNat + 2 * v[1].toNat + 4 * v[2].toNat + 8 * v[3].toNat + 16 * v[4].toNat + 32 * v[5].toNat +
    64 * v[6].toNat)

/-- The time units of `n` panel actions from draw `d` on, beyond the nominal ones (60_exceptions.md R209). -/
def extraTime (d : Nat) : Nat → Nat
  | 0 => 0
  | n + 1 => Config.freeDelay d + extraTime (d + 1) n

/-- The state after a whole POLL started in state `s` (43_poll.md R180, R185, R186, R188, R190, R191). -/
def pollEffect (s : State) : State :=
  answered 0#3 (buttonMask (pollButtons s))
    { s with
      button := pollButtons s
      poll := none
      clk := .high
      weN := .high
      dout := if (scanFrame s.tables s.idleNow 6).getLsbD 15 then .high else .low
      time := s.time + 16955 + extraTime s.draws 5630
      draws := s.draws + 5630
      dinLevels := s.dinLevels.drop 7
      actions := (pollActions s).reverse ++ s.actions }

/-- What the panel's shift register samples: DOUT at each rising edge of CLK (40_transport.md R102), for a list of actions
in order and the levels of CLK and DOUT before it. -/
def sampledBits (clk dout : Bool) : List Action → List Bool
  | [] => []
  | .setLine .clk v :: rest => if v && !clk then dout :: sampledBits v dout rest else sampledBits v dout rest
  | .setLine .dout v :: rest => sampledBits clk v rest
  | .setLine .weN _ :: rest => sampledBits clk dout rest
  | .wait _ :: rest => sampledBits clk dout rest
  | .sample :: rest => sampledBits clk dout rest

/-- The number of CLK edges a list of actions makes while WE_N has the level `want` (40_transport.md R106), from the
levels of CLK and WE_N before it. -/
def clockEdges (want clk weN : Bool) : List Action → Nat
  | [] => 0
  | .setLine .clk v :: rest => (if v != clk && weN == want then 1 else 0) + clockEdges want v weN rest
  | .setLine .weN v :: rest => clockEdges want clk v rest
  | .setLine .dout _ :: rest => clockEdges want clk weN rest
  | .wait _ :: rest => clockEdges want clk weN rest
  | .sample :: rest => clockEdges want clk weN rest

/-- The rising and the falling CLK edges of each transfer of a list of actions, in order: counted from where WE_N falls,
and given out where it rises (40_transport.md R106). `clk` is the level of CLK before the list, and `rise` and `fall` are
the edges already counted of the transfer it begins in. -/
def edgesPerTransfer (clk : Bool) (rise fall : Nat) : List Action → List (Nat × Nat)
  | [] => []
  | .setLine .clk v :: rest =>
    edgesPerTransfer v (rise + if v && !clk then 1 else 0) (fall + if !v && clk then 1 else 0) rest
  | .setLine .weN true :: rest => (rise, fall) :: edgesPerTransfer clk 0 0 rest
  | .setLine .weN false :: rest => edgesPerTransfer clk 0 0 rest
  | .setLine .dout _ :: rest => edgesPerTransfer clk rise fall rest
  | .wait _ :: rest => edgesPerTransfer clk rise fall rest
  | .sample :: rest => edgesPerTransfer clk rise fall rest

/-- How many transfers of a POLL send a frame of one kind (43_poll.md R189). -/
def transfersOf (kind : FrameKind) : Nat := (pollProgram.filter (fun op => op == .beginTransfer kind)).length

/-- The masks and match values of the seventeen rows of spec/opcode_table.json, in its order. -/
def tableRows : List (Word × Word) :=
  [ (0xFFFFFFFF#32, 0x01#32), (0xFFFFFFFF#32, 0x02#32), (0xFFFFE8FF#32, 0x10#32), (0xFFFFF8FF#32, 0x11#32),
    (0xFFFFF8FF#32, 0x12#32), (0xFFFFF8FF#32, 0x13#32), (0x0000FFFF#32, 0x20#32), (0xFFFFFFFF#32, 0x21#32),
    (0xFFFFEFFF#32, 0x22#32), (0xFFFFFFFF#32, 0x23#32), (0xFFFFEFFF#32, 0x30#32), (0xFFFFFFFF#32, 0x31#32),
    (0xFFFFEFFF#32, 0x40#32), (0xFFFFFFFF#32, 0x41#32), (0xFFFFF8FF#32, 0x50#32), (0x0000FFFF#32, 0x60#32),
    (0x0000FFFF#32, 0x61#32) ]

/-- The assigned opcodes (30_encoding.md R76). -/
def assignedOpcodes : List (BitVec 8) :=
  [0x01#8, 0x02#8, 0x10#8, 0x11#8, 0x12#8, 0x13#8, 0x20#8, 0x21#8, 0x22#8, 0x23#8, 0x30#8, 0x31#8, 0x40#8, 0x41#8,
    0x50#8, 0x60#8, 0x61#8]

/-- A command that reads state and writes none, or neither (20_memory.md R58). -/
def readsOnly : Instr → Bool
  | .getLed _ => true
  | .getDisplay => true
  | .isDisplayEnabled => true
  | .isBuzzing => true
  | .isCelsius => true
  | .getButton _ => true
  | .cToF _ => true
  | .fToC _ => true
  | .init => false
  | .poll => false
  | .setLed _ _ => false
  | .clearLed _ => false
  | .toggleLed _ => false
  | .setDisplay _ => false
  | .enableDisplay _ => false
  | .setBuzzer _ => false
  | .setCelsius _ => false

/-- A command of 42_state_commands.md: every command but INIT and POLL (R140). -/
def stateCommand : Instr → Bool
  | .init => false
  | .poll => false
  | .setLed _ _ => true
  | .clearLed _ => true
  | .toggleLed _ => true
  | .getLed _ => true
  | .setDisplay _ => true
  | .getDisplay => true
  | .enableDisplay _ => true
  | .isDisplayEnabled => true
  | .setBuzzer _ => true
  | .isBuzzing => true
  | .setCelsius _ => true
  | .isCelsius => true
  | .getButton _ => true
  | .cToF _ => true
  | .fToC _ => true

end Sys2Proof.Safety
end

