-- ==== Sys2Proof/Certificates/Slice0/Obligations.lean ====
section
/-! DEFINITION. The statements for the provers. `answered c d s` (Safety.lean) is `s` with both response registers written
and nothing else of the SPC, so an equation `exec i s = .next (answered c d s')` also says the whole frame: every other
register, line, history and counter is that of `s'`. -/

open Sys2Proof Sys2Proof.Machine Sys2Proof.Safety

/-! ## Encoding -/

/-- Words written out from the spec's encoding (30_encoding.md, the encoding examples after R79; 95_test_vectors.md T2)
decode to the commands they stand for, and illegal ones to none. -/
def Obligations.DecodesTheSpecsWords : Prop :=
  decodeTableWord 32 0x00000001 = some .init ∧
  decodeTableWord 32 0x00000002 = some .poll ∧
  decodeTableWord 32 0x00001410 = some (.setLed 4 true) ∧
  decodeTableWord 32 0x00000111 = some (.clearLed 1) ∧
  decodeTableWord 32 0x01330020 = some (.setDisplay 307) ∧
  decodeTableWord 32 0x00000040 = some (.setCelsius false) ∧
  decodeTableWord 32 0x00000650 = some (.getButton 6) ∧
  decodeTableWord 32 0xFFD80060 = some (.cToF (-40)) ∧
  decodeTableWord 32 0x00D40061 = some (.fToC 212) ∧
  decodeTableWord 32 0x00000000 = none ∧
  decodeTableWord 32 0x00001111 = none ∧
  decodeTableWord 32 0x00008010 = none

/-- Decoding the word of a well-formed command gives the command back, with every operand (30_encoding.md R70 to R76). -/
def Obligations.DecodeOfEncodeIsTheCommand : Prop :=
  ∀ i : Instr, i.wellFormed = true → decode (encode i) = .ok i

/-- A word that decodes is the word of its command: no bit of a legal word is ignored, and what the decoder gives is
well-formed (30_encoding.md R70 to R76). -/
def Obligations.EncodeOfDecodeIsTheWord : Prop :=
  ∀ (w : Word) (i : Instr), decode w = .ok i → encode i = w ∧ i.wellFormed = true

/-- A word is a command exactly where a row of the opcode table selects it: `(w & mask) == OP` (30_encoding.md R71). -/
def Obligations.WordIsCommandIffARowSelectsIt : Prop :=
  ∀ w : Word, (∃ i, decode w = .ok i) ↔ ∃ r ∈ tableRows, w &&& r.1 = r.2

/-- A word with an unassigned opcode gets ILLEGAL_COMMAND and changes no state (30_encoding.md R77). -/
def Obligations.UnassignedOpcodeIsIllegal : Prop :=
  ∀ (s : State) (w : Word) (rest : List HostEvent),
    s.inputs = .word w :: rest → s.poll = none → s.rspStatus ≠ 7#3 → w.extractLsb' 0 8 ∉ assignedOpcodes →
    step s = .next (answered 3#3 0#32 { s with inputs := rest })

/-- A word whose opcode is assigned and whose unused fields and reserved bits are not all 0 gets ILLEGAL_COMMAND and
changes no state (30_encoding.md R72). -/
def Obligations.UnusedFieldSetIsIllegal : Prop :=
  ∀ (s : State) (w : Word) (rest : List HostEvent) (r : Word × Word),
    s.inputs = .word w :: rest → s.poll = none → s.rspStatus ≠ 7#3 → r ∈ tableRows →
    w.extractLsb' 0 8 = r.2.extractLsb' 0 8 → w &&& r.1 ≠ r.2 →
    step s = .next (answered 3#3 0#32 { s with inputs := rest })

/-- Whatever the assembler accepts fits the fields of its format (30_encoding.md R80: an operand "must fit the field"). -/
def Obligations.AssembledCommandFitsItsFields : Prop :=
  ∀ (mnemonic : String) (operands : List AsmOperand) (i : Instr),
    assemble mnemonic operands = some i → i.wellFormed = true

/-- The default operands (30_encoding.md R82): each pseudo-form is its expansion, and SET_CELSIUS has none. -/
def Obligations.AssemblerDefaultOperands : Prop :=
  (∀ id : AsmOperand, assemble "SET_LED" [id] = assemble "SET_LED" [id, .dec 1]) ∧
  assemble "ENABLE_DISPLAY" [] = some (.enableDisplay true) ∧
  assemble "ENABLE_DISPLAY" [.dec 1] = some (.enableDisplay true) ∧
  assemble "SET_BUZZER" [] = some (.setBuzzer true) ∧
  assemble "SET_BUZZER" [.dec 1] = some (.setBuzzer true) ∧
  assemble "SET_CELSIUS" [] = none

/-! ## The machine: a step, reset, the invariant -/

/-- A step runs the decoded command: where the host presents a word that decodes to `i` to an SPC that is not busy, the
step is `exec i` on the state with the word taken (60_exceptions.md R204, R216). -/
def Obligations.StepRunsTheDecodedCommand : Prop :=
  ∀ (s : State) (w : Word) (rest : List HostEvent) (i : Instr),
    s.inputs = .word w :: rest → s.poll = none → s.rspStatus ≠ 7#3 → decode w = .ok i →
    step s = exec i { s with inputs := rest }

/-- Words presented while a POLL runs, however many and whatever they are, are each answered BUSY and disturb nothing: the
running POLL, its actions and its result are as before (60_exceptions.md R217). Two clauses are the model's: that a BUSY
answer writes the response registers while the POLL runs is log entry 12 (DEDUCED from 10_state.md R31 and 60_exceptions.md
R203; the history it joins is log entry 7), and that the POLL does not advance in the step that takes a word is log entry 3
(DESIGN CHOICE). -/
def Obligations.WordsWhileBusyAreAnsweredBusy : Prop :=
  ∀ (s : State) (p : Sequencer) (words : List Word) (rest : List HostEvent),
    s.poll = some p → s.rspStatus ≠ 7#3 → s.inputs = words.map HostEvent.word ++ rest →
    Host.Core.run Sys2Proof.core words.length s = .next { s with
      inputs := rest
      rspStatus := if words = [] then s.rspStatus else 6#3
      rspData := if words = [] then s.rspData else 0#32
      responses := List.replicate words.length ⟨6#3, 0#32⟩ ++ s.responses }

/-- With nothing presented and no POLL running the SPC holds every register, and the lines stay at their levels
(60_exceptions.md R211). -/
def Obligations.IdleStepHoldsEverything : Prop :=
  ∀ s : State, s.poll = none → s.rspStatus ≠ 7#3 →
    (s.inputs = [] → step s = .next s) ∧
    (∀ rest, s.inputs = .quiet :: rest → step s = .next { s with inputs := rest })

/-- Reset, from every state (70_reset_and_hazards.md R231, R232): every register takes its reset value, a running POLL is
abandoned with no response and no action, and `button` does not depend on what the abandoned scan had written. That
`button` is a draw of the model's counter is log entry 1; what a reset does not touch is log entry 18. -/
def Obligations.ResetAppliesTheResetValues : Prop :=
  ∀ (s : State) (rest : List HostEvent), s.inputs = .reset :: rest →
    ∃ t, step s = .next t ∧
      (∀ l : Fin 5, t.led[l] = false) ∧ t.display = 20#10 ∧ t.displayEn = true ∧ t.buzzer = false ∧ t.celsius = true ∧
      t.initialized = false ∧ t.busy = false ∧ t.poll = none ∧ t.rspStatus = 0#3 ∧ t.rspData = 0#32 ∧
      t.clk = .z ∧ t.dout = .z ∧ t.weN = .z ∧ t.dinInput = true ∧ t.tables = s.tables ∧
      t.responses = s.responses ∧ t.actions = s.actions ∧ t.inputs = rest ∧
      (∀ (s' : State) (rest' : List HostEvent), s'.inputs = .reset :: rest' → s'.draws = s.draws →
        ∃ t', step s' = .next t' ∧ t'.button = t.button)

/-- The reset values of 70_reset_and_hazards.md R232 in the state right after reset; `button` has none. -/
def Obligations.ResetStateHoldsTheSpecsValues : Prop :=
  (∀ l : Fin 5, State.reset.led[l] = false) ∧ State.reset.display = 20#10 ∧ State.reset.displayEn = true ∧
  State.reset.buzzer = false ∧ State.reset.celsius = true ∧ State.reset.initialized = false ∧
  State.reset.busy = false ∧ State.reset.rspStatus = 0#3 ∧ State.reset.rspData = 0#32 ∧ State.reset.clk = .z ∧
  State.reset.dout = .z ∧ State.reset.weN = .z ∧ State.reset.dinInput = true ∧ State.reset.poll = none

/-- The invariant holds right after reset. -/
def Obligations.ResetMeetsTheInvariant : Prop := Inv State.reset

/-- From every state that meets the invariant a step answers a next state that meets it: no fault, no refusal, whatever
the host does and whatever the panel supplies (60_exceptions.md R200: an error is a status; 10_state.md R23, R32;
00_scope.md R9; 43_poll.md R182, R188). What a step is is log entry 3, and `todo` and the loading of the wait count in the
invariant of a running POLL are log entry 11. -/
def Obligations.EveryStepAnswersAndKeepsTheInvariant : Prop :=
  ∀ s : State, Inv s → ∃ t, step s = .next t ∧ Inv t

/-- Every step of a run keeps the mask equal to the buttons sampled so far (43_poll.md R185, R186). What is still
to be sampled is read in `todo`, the model's own field (log entry 11). -/
def Obligations.EveryStepKeepsTheMaskOnTheButtons : Prop :=
  ∀ s t : State, Inv s → MaskTracks s → step s = .next t → MaskTracks t

/-- No command, no action and no reset writes a constant table (10_state.md R34, 20_memory.md R63). -/
def Obligations.TablesAreNeverWritten : Prop :=
  ∀ s t : State, step s = .next t → t.tables = s.tables

/-- `initialized` changes only by INIT, from 0 to 1, and by reset, to 0 (10_state.md R29). -/
def Obligations.OnlyInitAndResetChangeInitialized : Prop :=
  ∀ s t : State, step s = .next t → t.initialized ≠ s.initialized →
    (s.initialized = false ∧ t.initialized = true ∧ s.poll = none ∧ ∃ rest, s.inputs = .word 0x00000001#32 :: rest) ∨
    (t.initialized = false ∧ ∃ rest, s.inputs = .reset :: rest)

/-- Outside a POLL the stored buttons are held: with no POLL running, no word and no quiet step writes `button`; only a
reset does (10_state.md R27: written by POLL, the reset draw is held "until the first POLL writes it"). That the step which
accepts a POLL writes none is log entry 3. -/
def Obligations.ButtonsAreHeldWithoutAScan : Prop :=
  ∀ s t : State, step s = .next t → s.poll = none → (∀ rest, s.inputs ≠ .reset :: rest) → t.button = s.button

/-- The two places where the model stops, both in states no run reaches (log entries 8 and 9): the reserved status code 7,
and a POLL with `display` above 999. -/
def Obligations.TheTwoModelFaults : Prop :=
  (∀ (s : State) (w : Word) (rest : List HostEvent), s.inputs = .word w :: rest → s.rspStatus = 7#3 →
    step s = .fault .reservedStatus) ∧
  (∀ s : State, s.initialized = true → 999 < s.display.toNat → exec .poll s = .fault .displayOutOfRange)

/-! ## All commands -/

/-- A command of 42_state_commands.md is always accepted: it gives exactly one response, with OK or the status of its own
operand check (INVALID_ARGUMENT or OUT_OF_BOUNDS), and the same one with the same effect whether or not INIT has run. It
performs no panel action, takes no time and does not set `busy`; on any status but OK it changes nothing but the response
(42_state_commands.md R140). -/
def Obligations.StateCommandsAnswerWithoutPanelAction : Prop :=
  ∀ (i : Instr) (s : State), stateCommand i = true →
    ∃ t, exec i s = .next t ∧ SamePanel s t ∧ t.initialized = s.initialized ∧ t.poll = s.poll ∧ t.tables = s.tables ∧
      t.inputs = s.inputs ∧ t.responses = ⟨t.rspStatus, t.rspData⟩ :: s.responses ∧
      (t.rspStatus = 0#3 ∨ t.rspStatus = 1#3 ∨ t.rspStatus = 2#3) ∧
      (∀ b : Bool, exec i { s with initialized := b } = .next { t with initialized := b }) ∧
      (t.rspStatus ≠ 0#3 → t = answered t.rspStatus 0#32 s)

/-- On any status but OK, whichever check gave it (BUSY, the decoder, the command's own), nothing changes but the response
registers, no panel action is performed, and the data is 0 (60_exceptions.md R203). The BUSY case is the model's: that the
response registers are written while a POLL runs is log entry 12 (DEDUCED), and that the POLL performs no action in the step
that takes a word is log entry 3 (DESIGN CHOICE). That a response was given is read in the history (log entry 7). -/
def Obligations.ErrorStatusChangesNothing : Prop :=
  ∀ (s t : State) (r : Response), step s = .next t → t.responses = r :: s.responses → r.status ≠ 0#3 →
    t = answered r.status 0#32 { s with inputs := s.inputs.tail }

/-- Which command writes which register (10_state.md R28, R38). R38 has POLL write `button` and the lines; that its own
exec step, the acceptance, leaves them unchanged is log entry 3 (DESIGN CHOICE): it performs no panel action, and the
sequencer writes them in the steps that follow. -/
def Obligations.CommandsWriteOnlyTheirRegisters : Prop :=
  ∀ (i : Instr) (s t : State), exec i s = .next t →
    (t.led = s.led ∨ (∃ id b, i = .setLed id b) ∨ (∃ id, i = .clearLed id) ∨ (∃ id, i = .toggleLed id)) ∧
    (t.display = s.display ∨ (∃ v, i = .setDisplay v) ∨ (∃ b, i = .setCelsius b)) ∧
    (t.displayEn = s.displayEn ∨ ∃ b, i = .enableDisplay b) ∧
    (t.buzzer = s.buzzer ∨ ∃ b, i = .setBuzzer b) ∧
    (t.celsius = s.celsius ∨ ∃ b, i = .setCelsius b) ∧
    t.button = s.button ∧
    (t.initialized = s.initialized ∨ i = .init) ∧
    (SamePanel s t ∨ i = .init) ∧
    (t.poll = s.poll ∨ i = .poll)

/-- A read-only command has no side effect and is idempotent: issued twice it answers the same (20_memory.md R58). -/
def Obligations.ReadsAreIdempotent : Prop :=
  ∀ (i : Instr) (s : State), readsOnly i = true →
    ∃ t u, exec i s = .next t ∧ exec i t = .next u ∧ SameDevice s t ∧ SamePanel s t ∧ t.initialized = s.initialized ∧
      t.poll = s.poll ∧ u.rspStatus = t.rspStatus ∧ u.rspData = t.rspData

/-! ## INIT -/

/-- INIT (40_transport.md R100, 70_reset_and_hazards.md R234). Where it has not run since reset: CLK, DOUT and WE_N are
driven high in this order, DIN is an input, `initialized` is 1, and no device-state register changes. A second INIT gets
ALREADY_INITIALIZED and changes nothing. The time INIT takes is left open. -/
def Obligations.InitDrivesTheLinesHighOnce : Prop :=
  ∀ s : State,
    (s.initialized = false →
      ∃ t, exec .init s = .next t ∧ t.clk = .high ∧ t.dout = .high ∧ t.weN = .high ∧ t.dinInput = true ∧
        t.initialized = true ∧ t.rspStatus = 0#3 ∧ t.rspData = 0#32 ∧ t.responses = ⟨0#3, 0#32⟩ :: s.responses ∧
        t.actions = .setLine .weN true :: .setLine .dout true :: .setLine .clk true :: s.actions ∧
        SameDevice s t ∧ t.poll = s.poll ∧ t.tables = s.tables ∧ t.inputs = s.inputs ∧ t.dinLevels = s.dinLevels ∧
        s.time ≤ t.time) ∧
    (s.initialized = true → exec .init s = .next (answered 5#3 0#32 s))

/-! ## POLL -/

/-- A POLL with `initialized = 0` performs no action and returns NOT_INITIALIZED (43_poll.md R181). -/
def Obligations.PollBeforeInitIsRejected : Prop :=
  ∀ s : State, s.initialized = false → exec .poll s = .next (answered 4#3 0#32 s)

/-- An accepted POLL sets `busy` and starts the sequencer at position 0 with mask 0 and every frame built from the state now
(43_poll.md R180, R182; 10_state.md R21). Two clauses are the model's: that the accepting step changes nothing else is log
entry 3 (DESIGN CHOICE: it performs no panel action), and the 5630 actions to go are read in `todo`, the model's own field of
log entry 11 (DESIGN CHOICE), with the count of R188. -/
def Obligations.PollStartsWithTheSnapshot : Prop :=
  ∀ s : State, s.initialized = true → s.display.toNat ≤ 999 →
    ∃ p, exec .poll s = .next { s with poll := some p } ∧ p.seq = 0 ∧ p.mask = 0#7 ∧ p.todo.length = 5630 ∧
      p.idle = idleFrame s.tables s.buzzer ∧ p.ledFrame = ledFrame s.tables s.buzzer s.led ∧
      (∀ q : Fin 4, p.disp[q] = displayFrame s.tables s.buzzer s.display.toNat s.displayEn s.celsius q)

/-- THE WHOLE POLL. From every state that meets the invariant, after INIT and with no POLL running, POLL is accepted, and
5630 steps in which the host presents nothing give exactly its effect (`pollEffect`): the action list of 43_poll.md R180
in order, every button written from its own sample by its own number, the response OK with the mask, the lines at their
end levels, at least 16955 time units, and nothing else changed (R180, R182 to R191). What is the model's in it: one action
a step, the acceptance of the POLL before them, and the response in the step of the last action (log entry 3); a DIN level
the state does not list is the free value at the draw counter (log entry 5); the exact time and draw counter are free values
beyond the nominal ones (log entry 6); the histories (log entry 7). -/
def Obligations.PollRunsToItsWholeEffect : Prop :=
  ∀ s : State, Inv s → s.initialized = true → s.poll = none → s.inputs = [] →
    ∃ t, exec .poll s = .next t ∧ Host.Core.run Sys2Proof.core 5630 t = .next (pollEffect s)

/-- A POLL takes at least 16955 time units (43_poll.md R190; 60_exceptions.md R209: every wait is a lower bound).
How many steps the POLL takes is log entry 3, and what counts as time log entry 6. -/
def Obligations.PollTakesAtLeastItsNominalTime : Prop :=
  ∀ s : State, Inv s → s.initialized = true → s.poll = none → s.inputs = [] →
    ∃ t u, exec .poll s = .next t ∧ Host.Core.run Sys2Proof.core 5630 t = .next u ∧ s.time + 16955 ≤ u.time

/-- What the panel samples during a POLL, at the rising edges of CLK, is exactly the 57 frames of R183 and R184, each bit 0
first (40_transport.md R102; 43_poll.md R189). How many steps the POLL takes is log entry 3. -/
def Obligations.PanelSamplesTheFramesLsbFirst : Prop :=
  ∀ s : State, Inv s → s.initialized = true → s.poll = none → s.inputs = [] →
    ∃ t u new, exec .poll s = .next t ∧ Host.Core.run Sys2Proof.core 5630 t = .next u ∧
      u.actions = new.reverse ++ s.actions ∧
      (∀ d : Bool, sampledBits true d new = (pollFrames s).flatMap frameBits) ∧
      (pollFrames s).length = 57

/-- During a POLL CLK has no edge while WE_N is high, and while WE_N is low exactly 16 rising and 16 falling edges in each
of the 57 transfers, 1824 edges in all (40_transport.md R106). How many steps the POLL takes is log entry 3. -/
def Obligations.ClockMovesOnlyInsideATransfer : Prop :=
  ∀ s : State, Inv s → s.initialized = true → s.poll = none → s.inputs = [] →
    ∃ t u new, exec .poll s = .next t ∧ Host.Core.run Sys2Proof.core 5630 t = .next u ∧
      u.actions = new.reverse ++ s.actions ∧ clockEdges true true true new = 0 ∧ clockEdges false true true new = 1824 ∧
      edgesPerTransfer true 0 0 new = List.replicate 57 (16, 16)

/-- After a completed POLL the response data is the mask: bit b is `button[b]` for b in 0..6, the other bits are 0
(43_poll.md R186). How many steps the POLL takes is log entry 3. -/
def Obligations.PollMaskIsTheButtons : Prop :=
  ∀ s : State, Inv s → s.initialized = true → s.poll = none → s.inputs = [] →
    ∃ t u, exec .poll s = .next t ∧ Host.Core.run Sys2Proof.core 5630 t = .next u ∧ u.poll = none ∧ u.rspStatus = 0#3 ∧
      (∀ b : Fin 7, u.rspData.getLsbD b.val = u.button[b]) ∧ (∀ k, 7 ≤ k → u.rspData.getLsbD k = false)

/-- TRANSFER(f) in a running POLL: 98 steps in which the host presents nothing perform exactly the 98 actions of
40_transport.md R101 on the frame chosen, and leave CLK and WE_N high and DOUT at bit 15; nothing else of the SPC changes
but the sequencer's position. One action a step is log entry 3; `todo` is the model's own field (log entry 11). -/
def Obligations.TransferPerformsItsActionList : Prop :=
  ∀ (s : State) (p : Sequencer) (kind : FrameKind) (rest : List SeqOp),
    QuietFor 98 s → s.rspStatus ≠ 7#3 → s.poll = some p → p.todo = transferOps kind ++ rest → rest ≠ [] →
    ∃ u q, Host.Core.run Sys2Proof.core 98 s = .next u ∧ u.poll = some q ∧ q.todo = rest ∧ q.seq = p.seq + 98 ∧
      q.mask = p.mask ∧ q.idle = p.idle ∧ q.ledFrame = p.ledFrame ∧ q.disp = p.disp ∧
      u.actions = (transferActions (p.pick s.tables kind)).reverse ++ s.actions ∧
      (transferActions (p.pick s.tables kind)).length = 98 ∧
      u.clk = .high ∧ u.weN = .high ∧ u.dout = (if (p.pick s.tables kind).getLsbD 15 then .high else .low) ∧
      SameDevice s u ∧ SameResponse s u ∧ u.initialized = s.initialized ∧ u.tables = s.tables ∧
      u.dinLevels = s.dinLevels ∧ u.dinInput = s.dinInput ∧ u.inputs = s.inputs.drop 98

/-- The sample of a scan step: the button is recorded pressed exactly where the DIN level is 0, in its own register and its
own mask bit, and no other button changes (43_poll.md R184, R185). Where more actions follow, the mask stays in the
sequencer; at the last action, which in a run is the sample of F/C (R188), it is the data of the response (R186). The level
is the next the panel supplies, or a free draw (60_exceptions.md R215, log entry 5); the response in the step of the last
action is log entry 3, and `todo` the model's own field (log entry 11). -/
def Obligations.SampleRecordsItsButton : Prop :=
  ∀ (s : State) (p : Sequencer) (b : Fin 7) (rest : List SeqOp),
    QuietFor 1 s → s.rspStatus ≠ 7#3 → s.poll = some p → p.todo = .sample b :: rest →
    ∃ u, step s = .next u ∧
      u.button[b] = !(s.dinLevels.head?.getD (Config.freeDin s.draws)) ∧
      (∀ c : Fin 7, c ≠ b → u.button[c] = s.button[c]) ∧
      (rest ≠ [] → ∃ q, u.poll = some q ∧ q.todo = rest ∧
        q.mask.getLsbD b.val = (p.mask.getLsbD b.val || u.button[b]) ∧
        (∀ k, k ≠ b.val → q.mask.getLsbD k = p.mask.getLsbD k)) ∧
      (rest = [] → u.poll = none ∧ u.rspStatus = 0#3 ∧
        u.rspData.getLsbD b.val = (p.mask.getLsbD b.val || u.button[b]) ∧
        (∀ k, k ≠ b.val → u.rspData.getLsbD k = p.mask.getLsbD k)) ∧
      u.dinLevels = s.dinLevels.tail ∧ u.actions = .sample :: s.actions ∧ u.clk = s.clk ∧ u.dout = s.dout ∧
      u.weN = s.weN ∧ u.led = s.led ∧ u.display = s.display ∧ u.displayEn = s.displayEn ∧ u.buzzer = s.buzzer ∧
      u.celsius = s.celsius ∧ u.initialized = s.initialized ∧ u.dinInput = s.dinInput ∧ u.tables = s.tables ∧
      u.inputs = s.inputs.tail

/-- `seq` advances by exactly one with each action, one action a step, whether the host has listed a quiet event or nothing,
and `busy` stays 1 until the last action, after which the response comes at once (10_state.md R21, 43_poll.md R187); that
it comes in the same step is log entry 3, and `todo` is the model's own field (log entry 11). -/
def Obligations.SeqAdvancesByOneUntilTheResponse : Prop :=
  ∀ (s : State) (p : Sequencer) (op : SeqOp) (rest : List SeqOp),
    QuietFor 1 s → s.rspStatus ≠ 7#3 → s.poll = some p → p.todo = op :: rest →
    ∃ u a, step s = .next u ∧ u.actions = a :: s.actions ∧ u.inputs = s.inputs.tail ∧
      (rest ≠ [] → u.busy = true ∧ SameResponse s u ∧ ∃ q, u.poll = some q ∧ q.seq = p.seq + 1 ∧ q.todo = rest) ∧
      (rest = [] → u.busy = false ∧ u.rspStatus = 0#3 ∧ u.responses = ⟨0#3, u.rspData⟩ :: s.responses)

/-- The fixed sequence of a POLL: 986 actions a pass, 100 a scan step, 5630 in all, its seven samples at positions
5029 + 100k in scan order, the last at 5629; 57 transfers, 5 of the LED frame, 25 of the idle frame, 20 of display frames, 7
of scan frames; and the idle frame before every display frame (43_poll.md R188, R189; 70_reset_and_hazards.md R235). The list
of operations, one for each action, is the model's form of the sequence (log entry 11). -/
def Obligations.PollSequenceHasItsShape : Prop :=
  passOps.length = 986 ∧ (∀ b, (scanOps b).length = 100) ∧ pollProgram.length = 5630 ∧
  (∀ k : Fin 7, pollProgram[5029 + 100 * k.val]? = some (.sample scanOrder[k])) ∧
  (pollProgram.filter (fun op => match op with | .sample _ => true | _ => false)).length = 7 ∧
  (pollProgram.filter (fun op => match op with | .beginTransfer _ => true | _ => false)).length = 57 ∧
  transfersOf .led = 5 ∧ transfersOf .idle = 25 ∧ (∀ p, transfersOf (.display p) = 5) ∧ (∀ b, transfersOf (.scan b) = 1) ∧
  (∀ n (p : Fin 4), pollProgram[n]? = some (.beginTransfer (.display p)) →
    98 ≤ n ∧ pollProgram[n - 98]? = some (.beginTransfer .idle))

/-! ## LEDs -/

/-- SET_LED writes its LED's flag, and gets OUT_OF_BOUNDS and changes nothing above 4 (42_state_commands.md R141). -/
def Obligations.SetLedWritesItsFlag : Prop :=
  ∀ (s : State) (id : Nat) (b : Bool),
    (∀ h : id ≤ 4, exec (.setLed id b) s = .next (answered 0#3 0#32 { s with led := s.led.set id b })) ∧
    (4 < id → exec (.setLed id b) s = .next (answered 2#3 0#32 s))

/-- CLEAR_LED clears its LED's flag, and gets OUT_OF_BOUNDS and changes nothing above 4 (42_state_commands.md R142). -/
def Obligations.ClearLedClearsItsFlag : Prop :=
  ∀ (s : State) (id : Nat),
    (∀ h : id ≤ 4, exec (.clearLed id) s = .next (answered 0#3 0#32 { s with led := s.led.set id false })) ∧
    (4 < id → exec (.clearLed id) s = .next (answered 2#3 0#32 s))

/-- TOGGLE_LED inverts its LED's flag, and gets OUT_OF_BOUNDS and changes nothing above 4 (42_state_commands.md R143). -/
def Obligations.ToggleLedInvertsItsFlag : Prop :=
  ∀ (s : State) (id : Nat),
    (∀ h : id ≤ 4, exec (.toggleLed id) s = .next (answered 0#3 0#32 { s with led := s.led.set id (!s.led[id]) })) ∧
    (4 < id → exec (.toggleLed id) s = .next (answered 2#3 0#32 s))

/-- GET_LED reads its LED's flag, and gets OUT_OF_BOUNDS above 4 (42_state_commands.md R144). -/
def Obligations.GetLedReadsItsFlag : Prop :=
  ∀ (s : State) (id : Nat),
    (∀ h : id ≤ 4, exec (.getLed id) s = .next (answered 0#3 (if s.led[id] then 1#32 else 0#32) s)) ∧
    (4 < id → exec (.getLed id) s = .next (answered 2#3 0#32 s))

/-- TOGGLE_LED twice returns every LED to its state (42_state_commands.md R143). -/
def Obligations.ToggleTwiceRestoresTheLeds : Prop :=
  ∀ (s : State) (id : Nat), ∃ t u, exec (.toggleLed id) s = .next t ∧ exec (.toggleLed id) t = .next u ∧ u.led = s.led

/-! ## Display, buzzer -/

/-- SET_DISPLAY accepts 0..999 and rejects every other value, leaving the state unchanged (42_state_commands.md R145). -/
def Obligations.SetDisplayStoresOrRejects : Prop :=
  ∀ (s : State) (v : Nat),
    (v ≤ 999 → exec (.setDisplay v) s = .next (answered 0#3 0#32 { s with display := BitVec.ofNat 10 v })) ∧
    (1000 ≤ v → exec (.setDisplay v) s = .next (answered 1#3 0#32 s))

/-- A value SET_DISPLAY accepts is the value GET_DISPLAY then returns (95_test_vectors.md W4). -/
def Obligations.GetDisplayReturnsWhatWasSet : Prop :=
  ∀ (s : State) (v : Nat), v ≤ 999 →
    ∃ t u, exec (.setDisplay v) s = .next t ∧ exec .getDisplay t = .next u ∧ u.rspStatus = 0#3 ∧ u.rspData.toNat = v

/-- GET_DISPLAY (42_state_commands.md R146): `zext_32(display)`, and in a run always 0..999. -/
def Obligations.GetDisplayReadsTheValue : Prop :=
  ∀ s : State, exec .getDisplay s = .next (answered 0#3 (BitVec.ofNat 32 s.display.toNat) s) ∧
    (Inv s → (BitVec.ofNat 32 s.display.toNat).toNat = s.display.toNat ∧ s.display.toNat ≤ 999)

/-- ENABLE_DISPLAY and SET_BUZZER write their flag (42_state_commands.md R147, R149). -/
def Obligations.FlagWritesAreTheirOperand : Prop :=
  ∀ (s : State) (b : Bool),
    exec (.enableDisplay b) s = .next (answered 0#3 0#32 { s with displayEn := b }) ∧
    exec (.setBuzzer b) s = .next (answered 0#3 0#32 { s with buzzer := b })

/-- IS_DISPLAY_ENABLED, IS_BUZZING and IS_CELSIUS read their flag (42_state_commands.md R148, R150, R154). -/
def Obligations.FlagReadsAreTheirFlag : Prop :=
  ∀ s : State,
    exec .isDisplayEnabled s = .next (answered 0#3 (if s.displayEn then 1#32 else 0#32) s) ∧
    exec .isBuzzing s = .next (answered 0#3 (if s.buzzer then 1#32 else 0#32) s) ∧
    exec .isCelsius s = .next (answered 0#3 (if s.celsius then 1#32 else 0#32) s)

/-- GET_BUTTON reads the stored button, whatever the registers hold, and gets OUT_OF_BOUNDS above 6 (42_state_commands.md
R155). -/
def Obligations.GetButtonReadsTheStoredButton : Prop :=
  ∀ (s : State) (id : Nat),
    (∀ h : id ≤ 6, exec (.getButton id) s = .next (answered 0#3 (if s.button[id] then 1#32 else 0#32) s)) ∧
    (6 < id → exec (.getButton id) s = .next (answered 2#3 0#32 s))

/-! ## The unit and the conversions -/

/-- SET_CELSIUS (42_state_commands.md R153): no effect where the unit does not change, otherwise the display value is
converted first, and rejected with neither register changed where the result is outside 0..999. -/
def Obligations.SetCelsiusRescalesTheDisplay : Prop :=
  ∀ (s : State) (b : Bool),
    let v : Int := if b then f2c s.display.toNat else c2f s.display.toNat
    (b = s.celsius → exec (.setCelsius b) s = .next (answered 0#3 0#32 s)) ∧
    (b ≠ s.celsius → v < 0 ∨ 999 < v → exec (.setCelsius b) s = .next (answered 1#3 0#32 s)) ∧
    (b ≠ s.celsius → 0 ≤ v → v ≤ 999 → exec (.setCelsius b) s =
      .next (answered 0#3 0#32 { s with display := BitVec.ofNat 10 v.toNat, celsius := b }))

/-- Where SET_CELSIUS changes the unit it succeeds exactly for `display` in 0..537 from Celsius and in 32..999 from
Fahrenheit (42_state_commands.md R159 (c)). -/
def Obligations.SetCelsiusSucceedsExactlyInRange : Prop :=
  ∀ s : State, s.display.toNat ≤ 999 →
    (s.celsius = true → ∃ t, exec (.setCelsius false) s = .next t ∧ (t.rspStatus = 0#3 ↔ s.display.toNat ≤ 537)) ∧
    (s.celsius = false → ∃ t, exec (.setCelsius true) s = .next t ∧ (t.rspStatus = 0#3 ↔ 32 ≤ s.display.toNat))

/-- SET_CELSIUS 0 followed by SET_CELSIUS 1 restores `display` exactly whenever the first succeeds (42_state_commands.md
R159 (a)). -/
def Obligations.UnitRoundTripRestoresTheDisplay : Prop :=
  ∀ s : State, s.celsius = true → s.display.toNat ≤ 537 →
    ∃ t u, exec (.setCelsius false) s = .next t ∧ t.celsius = false ∧ exec (.setCelsius true) t = .next u ∧
      u.rspStatus = 0#3 ∧ u.display = s.display ∧ u.celsius = true

/-- C_TO_F and F_TO_C answer the conversion in 32-bit two's complement and touch no state (42_state_commands.md R156,
R157). What the conversions compute is `ConversionsRoundToTheNearest`. -/
def Obligations.ConversionCommandsAnswerTheConversion : Prop :=
  ∀ (s : State) (t : Int), -32768 ≤ t → t ≤ 32767 →
    exec (.cToF t) s = .next (answered 0#3 (BitVec.ofInt 32 (c2f t)) s) ∧
    exec (.fToC t) s = .next (answered 0#3 (BitVec.ofInt 32 (f2c t)) s) ∧
    (BitVec.ofInt 32 (c2f t)).toInt = c2f t ∧ (BitVec.ofInt 32 (f2c t)).toInt = f2c t

/-- Each conversion is the integer nearest to the exact value, 9t/5 + 32 and 5(t - 32)/9, and no tie arises
(42_state_commands.md R151, R152, R158). -/
def Obligations.ConversionsRoundToTheNearest : Prop :=
  ∀ t : Int, (-5 < 2 * (5 * c2f t - (9 * t + 160)) ∧ 2 * (5 * c2f t - (9 * t + 160)) < 5) ∧
    (-9 < 2 * (9 * f2c t - 5 * (t - 32)) ∧ 2 * (9 * f2c t - 5 * (t - 32)) < 9)

/-- The laws of the conversions (42_state_commands.md R159): F2C(C2F(t)) = t for every integer t; the other way round it
is not always so; and which values of 0..999 stay in 0..999. -/
def Obligations.ConversionLaws : Prop :=
  (∀ t : Int, f2c (c2f t) = t) ∧
  (f2c 33 = 1 ∧ c2f 1 = 34 ∧ f2c 35 = 2 ∧ c2f 2 = 36) ∧
  (∀ d : Int, 0 ≤ d → d ≤ 999 → (c2f d ≤ 999 ↔ d ≤ 537) ∧ (0 ≤ f2c d ↔ 32 ≤ d)) ∧
  (c2f 537 = 999 ∧ c2f 538 = 1000 ∧ f2c 31 = -1 ∧ f2c 32 = 0 ∧ f2c 999 = 537)

/-! ## Frames -/

/-- IDLE: every bit is 1 but the buzzer bit where the buzzer sounds, and SCAN_FRAME clears the button's select bit beside
it (41_frame_builder.md R120, R126). -/
def Obligations.IdleAndScanFrameBits : Prop :=
  ∀ (t : Tables) (bz : Bool) (b : Fin 7) (k : Fin 16),
    ((idleFrame t bz).getLsbD k.val = false ↔ bz = true ∧ k = t.bitBuzzer) ∧
    ((scanFrame t (idleFrame t bz) b).getLsbD k.val = false ↔ (bz = true ∧ k = t.bitBuzzer) ∨ k = t.bitBtn[b])

/-- LED_FRAME: cleared are the bit of each LED that is on, always the LED-active bit, and the buzzer bit where the buzzer
sounds, and no other (41_frame_builder.md R121). -/
def Obligations.LedFrameBits : Prop :=
  ∀ (t : Tables) (bz : Bool) (led : Vector Bool 5) (k : Fin 16),
    (ledFrame t bz led).getLsbD k.val = false ↔
      (bz = true ∧ k = t.bitBuzzer) ∨ (∃ l : Fin 5, led[l] = true ∧ k = t.bitLed[l]) ∨ k = t.bitLedActive

/-- DISPLAY_FRAME: at a digit position, cleared are the digit-select bit, the buzzer bit where the buzzer sounds, and the
segments of the digit where the display is enabled; at the unit indicator, its digit-select bit, the buzzer bit, and the
Celsius or the Fahrenheit glyph, whether the digits are enabled or not; and no other bit (41_frame_builder.md R124, R128,
R129). -/
def Obligations.DisplayFrameBits : Prop :=
  ∀ (t : Tables) (bz en cel : Bool) (v : Nat) (k : Fin 16),
    (∀ p : Fin 3, v ≤ 999 → ((displayFrame t bz v en cel (p.castSucc)).getLsbD k.val = false ↔
      (bz = true ∧ k = t.bitBuzzer) ∨ k = t.bitDigit[p.castSucc] ∨
      (en = true ∧ ∃ d : Fin 12, d.val = v / 10 ^ (2 - p.val) % 10 ∧ t.segMask[d].getLsbD k.val = true))) ∧
    ((displayFrame t bz v en cel 3).getLsbD k.val = false ↔
      (bz = true ∧ k = t.bitBuzzer) ∨ k = t.bitDigit[3] ∨
      (if cel then t.segMask[10] else t.segMask[11]).getLsbD k.val = true)

/-- DIGITS: three decimal digits that make up the value (41_frame_builder.md R122). -/
def Obligations.DigitsMakeUpTheValue : Prop :=
  ∀ v : Nat, v ≤ 999 → digit v 0 ≤ 9 ∧ digit v 1 ≤ 9 ∧ digit v 2 ≤ 9 ∧
    100 * digit v 0 + 10 * digit v 1 + digit v 2 = v

/-! ## POLL and words together -/

/-- Words presented between the actions of a POLL, anywhere, however many and whatever they are, do not disturb its result
(60_exceptions.md R217). `es` and one quiet event after it are what the host does from the acceptance of the POLL on, where
an exhausted list of events is quiet; they hold 5630 quiet events, the last one last, and no reset. Then the state after
them is that of the undisturbed POLL, but that each word was answered BUSY before the response of the POLL. The model's
clauses: one action a quiet step and none in the step of a word, the response in the last (log entry 3), the list of events
(log entry 4), the free values (log entries 5, 6), the BUSY answers in the history (log entries 7, 12). -/
def Obligations.WordsDuringAPollLeaveItsResult : Prop :=
  ∀ (s : State) (es rest : List HostEvent) (k : Nat), Inv s → s.initialized = true → s.poll = none →
    s.inputs ++ List.replicate k .quiet = es ++ .quiet :: rest → .reset ∉ es → es.count .quiet = 5629 →
    ∃ t, exec .poll s = .next t ∧ Host.Core.run Sys2Proof.core (es.length + 1) t = .next { pollEffect s with
      inputs := s.inputs.drop (es.length + 1)
      responses := ⟨0#3, buttonMask (pollButtons s)⟩ :: (List.replicate (es.length - 5629) ⟨6#3, 0#32⟩ ++ s.responses) }
end

