-- ==== Sys2Proof/Laws/Config.lean ====
section
/-! SUPPORT. The open parameters meet 00_scope.md R9, and every binding R9 allows can arise. -/

namespace Sys2Proof

/-- The next position of a frame bit is another one. -/
theorem next_position_ne (k : Fin 16) : k + 1 ≠ k := by
  revert k; decide

/-- Moving the two positions makes any tables meet R9. -/
theorem Tables.constrain_wf (t : Tables) : t.constrain.wf = true := by
  have h := next_position_ne t.bitLedActive
  by_cases hb : t.bitBuzzer = t.bitLedActive <;> by_cases hl : t.bitLed[0] = t.bitLedActive <;>
    simp [Tables.constrain, Tables.wf, hb, hl, h, Ne.symm h, eq_comm (a := t.bitLedActive)]

/-- Tables that meet R9 are left as they are. -/
theorem Tables.constrain_of_wf (t : Tables) (h : t.wf = true) : t.constrain = t := by
  have hb : t.bitBuzzer ≠ t.bitLedActive := fun e => by simp [Tables.wf, e] at h
  have hl : t.bitLed[0] ≠ t.bitLedActive := fun e => by simp [Tables.wf, e] at h
  simp only [Tables.constrain, if_neg hb, if_neg hl]

/-- The tables of this SPC meet R9. -/
theorem Config.tables_wf : Config.tables.wf = true := Tables.constrain_wf _

end Sys2Proof
end

