-- ==== Sys2Proof/Laws/Decode.lean ====
section
/-! SUPPORT. The decoder and the encoder: the fields of a laid-out word, the rows of the opcode map, and that a word
selects at most one row. -/

namespace Sys2Proof

/-- Every bit of a laid-out word (30_encoding.md R70). -/
theorem layout_bit (imm : BitVec 16) (s : Bool) (id : BitVec 3) (op : BitVec 8) {i : Nat} (hi : i < 32) :
    (layout imm s id op).getLsbD i =
      if i < 8 then op.getLsbD i else if i < 11 then id.getLsbD (i - 8) else if i = 12 then s
      else if i < 16 then false else imm.getLsbD (i - 16) := by
  simp only [layout, BitVec.getLsbD_or, BitVec.getLsbD_shiftLeft, BitVec.getLsbD_setWidth, BitVec.getLsbD_ofBool, hi,
    decide_true, Bool.true_and]
  by_cases h8 : i < 8
  · simp [h8, show i < 16 by omega, show i < 12 by omega]
  · have hop : op.getLsbD i = false := BitVec.getLsbD_of_ge op i (by omega)
    by_cases h11 : i < 11
    · simp [h8, h11, hop, show i < 16 by omega, show i < 12 by omega, show i - 8 < 32 by omega]
    · have hid : id.getLsbD (i - 8) = false := BitVec.getLsbD_of_ge id _ (by omega)
      by_cases h12 : i = 12
      · subst h12; simp
      · by_cases h16 : i < 16
        · simp [h8, h11, h12, h16, hop, hid]; omega
        · simp [h8, h11, h12, h16, hop, hid, show i - 16 < 32 by omega]; omega

/-- Field OP of a laid-out word. -/
@[simp] theorem layout_op (imm : BitVec 16) (s : Bool) (id : BitVec 3) (op : BitVec 8) :
    (layout imm s id op).extractLsb' 0 8 = op := by
  apply BitVec.eq_of_getLsbD_eq
  intro i hi
  simp [layout_bit imm s id op (show i < 32 by omega), hi]

/-- Field ID of a laid-out word. -/
@[simp] theorem layout_id (imm : BitVec 16) (s : Bool) (id : BitVec 3) (op : BitVec 8) :
    (layout imm s id op).extractLsb' 8 3 = id := by
  apply BitVec.eq_of_getLsbD_eq
  intro i hi
  simp only [BitVec.getLsbD_extractLsb', layout_bit imm s id op (show 8 + i < 32 by omega), hi, decide_true,
    Bool.true_and]
  simp [show 8 + i < 11 by omega]

/-- Field S of a laid-out word. -/
@[simp] theorem layout_s (imm : BitVec 16) (s : Bool) (id : BitVec 3) (op : BitVec 8) :
    (layout imm s id op).getLsbD 12 = s := by
  simp only [layout_bit imm s id op (show 12 < 32 by omega)]
  simp

/-- Field IMM16 of a laid-out word. -/
@[simp] theorem layout_imm (imm : BitVec 16) (s : Bool) (id : BitVec 3) (op : BitVec 8) :
    (layout imm s id op).extractLsb' 16 16 = imm := by
  apply BitVec.eq_of_getLsbD_eq
  intro i hi
  simp only [BitVec.getLsbD_extractLsb', layout_bit imm s id op (show 16 + i < 32 by omega), hi, decide_true,
    Bool.true_and]
  simp [show ¬ 16 + i < 8 by omega, show ¬ 16 + i < 11 by omega, show 16 + i ≠ 12 by omega]

/-- Every format fixes the opcode byte (30_encoding.md R71). -/
theorem mask_low_byte (f : Format) : f.mask.extractLsb' 0 8 = 0xFF#8 := by
  cases f <;> decide

/-- A row selects only words with its opcode. -/
theorem Row.op_of_selects {r : Row} {w : Word} (h : r.selects w = true) : r.op = w.extractLsb' 0 8 := by
  have e : w &&& r.format.mask = r.op.setWidth 32 := by simpa [Row.selects] using h
  have e' := congrArg (fun v => BitVec.extractLsb' 0 8 v) e
  simp only [BitVec.extractLsb'_and, mask_low_byte] at e'
  apply BitVec.eq_of_getLsbD_eq
  intro i hi
  have := congrArg (fun v => BitVec.getLsbD v i) e'
  have hff : (0xFF#8).getLsbD i = true := by
    have all : ∀ k : Fin 8, (0xFF#8).getLsbD k.val = true := by decide
    exact all ⟨i, hi⟩
  simp only [BitVec.getLsbD_and, hff, Bool.and_true] at this
  rw [this]
  simp [show i < 8 from hi, show i < 32 by omega]

/-- No two rows of the opcode map have one opcode (30_encoding.md R76). -/
theorem opcodeMap_distinct : opcodeMap.Pairwise (fun a b => a.op ≠ b.op) := by
  simp [opcodeMap]

/-- In a list with pairwise different opcodes, the row that selects a word is the one `find?` finds. -/
theorem find_selecting {l : List Row} (hl : l.Pairwise (fun a b => a.op ≠ b.op)) {r : Row} (hr : r ∈ l) {w : Word}
    (hs : r.selects w = true) : l.find? (fun q => q.selects w) = some r := by
  induction l with
  | nil => simp at hr
  | cons q rest ih =>
    rcases List.mem_cons.mp hr with rfl | hr
    · simp [hs]
    · have hne : q.op ≠ r.op := (List.pairwise_cons.mp hl).1 r hr
      have hq : q.selects w = false := by
        cases hb : q.selects w with
        | false => rfl
        | true => exact absurd ((Row.op_of_selects hb).trans (Row.op_of_selects hs).symm) hne
      simp [hq, ih (List.pairwise_cons.mp hl).2 hr]

/-- A word that selects a row decodes to that row's command: no later row can hide it. -/
theorem decode_of_selects {r : Row} (hr : r ∈ opcodeMap) {w : Word} (hs : r.selects w = true) :
    decode w = .ok (r.build w) := by
  simp [decode, find_selecting opcodeMap_distinct hr hs]

/-- Everything the decoder can answer: the command of the row the word selects, or an error where it selects none. -/
theorem decode_cases (w : Word) :
    (∃ r ∈ opcodeMap, r.selects w = true ∧ decode w = .ok (r.build w)) ∨
      ((∀ r ∈ opcodeMap, r.selects w = false) ∧ decode w = .error (decodeError w)) := by
  cases h : opcodeMap.find? (fun r => r.selects w) with
  | some r => exact .inl ⟨r, List.mem_of_find?_eq_some h, by simpa using List.find?_some h, by simp [decode, h]⟩
  | none => exact .inr ⟨by simpa using h, by simp [decode, h]⟩

/-- Which bits each format fixes (30_encoding.md R71). -/
theorem mask_bit (f : Format) {i : Nat} (hi : i < 32) :
    f.mask.getLsbD i = match f with
      | .N => true
      | .I => !(decide (8 ≤ i) && decide (i < 11))
      | .IS => !(decide (8 ≤ i) && decide (i < 11)) && !decide (i = 12)
      | .S => !decide (i = 12)
      | .V => decide (i < 16) := by
  have all : ∀ f : Format, ∀ k : Fin 32, f.mask.getLsbD k.val = match f with
      | .N => true
      | .I => !(decide (8 ≤ k.val) && decide (k.val < 11))
      | .IS => !(decide (8 ≤ k.val) && decide (k.val < 11)) && !decide (k.val = 12)
      | .S => !decide (k.val = 12)
      | .V => decide (k.val < 16) := by
    intro f; cases f <;> decide
  exact all f ⟨i, hi⟩

/-- A laid-out word under a mask is its opcode, where every bit the mask keeps above the opcode is 0 in the word. -/
theorem layout_masked {imm : BitVec 16} {s : Bool} {id : BitVec 3} {op : BitVec 8} {f : Format}
    (h : ∀ i, 8 ≤ i → i < 32 → f.mask.getLsbD i = true → (layout imm s id op).getLsbD i = false) :
    layout imm s id op &&& f.mask = op.setWidth 32 := by
  apply BitVec.eq_of_getLsbD_eq
  intro i hi
  rw [BitVec.getLsbD_and, BitVec.getLsbD_setWidth]
  by_cases h8 : i < 8
  · have hm : f.mask.getLsbD i = true := by
      rw [mask_bit f hi]
      cases f <;> simp <;> omega
    rw [hm, layout_bit imm s id op hi]
    simp [h8, hi]
  · have hop : op.getLsbD i = false := BitVec.getLsbD_of_ge op i (by omega)
    rw [hop, Bool.and_false]
    cases hm : f.mask.getLsbD i with
    | false => simp
    | true => simp [h i (by omega) hi hm]

/-- The word of each format is selected by its format's mask (30_encoding.md R71, R72). -/
theorem wordN_masked (op : BitVec 8) : wordN op &&& Format.N.mask = op.setWidth 32 := by
  refine layout_masked fun i h8 h32 _ => ?_
  rw [layout_bit _ _ _ _ h32]
  simp [show ¬ i < 8 by omega]

@[inherit_doc wordN_masked]
theorem wordI_masked (op : BitVec 8) (id : Nat) : wordI op id &&& Format.I.mask = op.setWidth 32 := by
  refine layout_masked fun i h8 h32 hm => ?_
  rw [mask_bit .I h32] at hm
  rw [layout_bit _ _ _ _ h32]
  have : ¬ i < 11 := by simp at hm; omega
  simp [show ¬ i < 8 by omega, this]

@[inherit_doc wordN_masked]
theorem wordIS_masked (op : BitVec 8) (id : Nat) (s : Bool) : wordIS op id s &&& Format.IS.mask = op.setWidth 32 := by
  refine layout_masked fun i h8 h32 hm => ?_
  rw [mask_bit .IS h32] at hm
  rw [layout_bit _ _ _ _ h32]
  have : ¬ i < 11 ∧ i ≠ 12 := by simp at hm; omega
  simp [show ¬ i < 8 by omega, this.1, this.2]

@[inherit_doc wordN_masked]
theorem wordS_masked (op : BitVec 8) (s : Bool) : wordS op s &&& Format.S.mask = op.setWidth 32 := by
  refine layout_masked fun i h8 h32 hm => ?_
  rw [mask_bit .S h32] at hm
  rw [layout_bit _ _ _ _ h32]
  have : i ≠ 12 := by simpa using hm
  simp [show ¬ i < 8 by omega, this]

@[inherit_doc wordN_masked]
theorem wordV_masked (op : BitVec 8) (imm : BitVec 16) : wordV op imm &&& Format.V.mask = op.setWidth 32 := by
  refine layout_masked fun i h8 h32 hm => ?_
  rw [mask_bit .V h32] at hm
  rw [layout_bit _ _ _ _ h32]
  have : i < 16 := by simpa using hm
  simp [show ¬ i < 8 by omega, this]

/-- The fields a well-formed operand comes back from (30_encoding.md R73, R75). -/
theorem id_of_ofNat {id : Nat} (h : idFits id = true) : (BitVec.ofNat 3 id).toNat = id := by
  simp [idFits] at h
  simp; omega

@[inherit_doc id_of_ofNat]
theorem value_of_ofNat {v : Nat} (h : valueFits v = true) : (BitVec.ofNat 16 v).toNat = v := by
  simp [valueFits] at h
  simp; omega

@[inherit_doc id_of_ofNat]
theorem temp_of_ofInt {t : Int} (h : tempFits t = true) : (BitVec.ofInt 16 t).toInt = t := by
  simp [tempFits] at h
  rw [BitVec.toInt_ofInt, Int.bmod_def]
  omega

end Sys2Proof
end

