-- ==== Sys2Proof/Laws/State.lean ====
section
/-! SUPPORT. One lemma per field of State and per shared operation, so that no proof unfolds a record update. -/

namespace Sys2Proof.Machine

/-! `respond`, `raise`, `ret` (Machine/Ops.lean) -/

@[simp] theorem respond_led (st : Status) (d : Word) (s : State) : (respond st d s).led = s.led := rfl
@[simp] theorem respond_display (st : Status) (d : Word) (s : State) : (respond st d s).display = s.display := rfl
@[simp] theorem respond_displayEn (st : Status) (d : Word) (s : State) : (respond st d s).displayEn = s.displayEn := rfl
@[simp] theorem respond_buzzer (st : Status) (d : Word) (s : State) : (respond st d s).buzzer = s.buzzer := rfl
@[simp] theorem respond_celsius (st : Status) (d : Word) (s : State) : (respond st d s).celsius = s.celsius := rfl
@[simp] theorem respond_button (st : Status) (d : Word) (s : State) : (respond st d s).button = s.button := rfl
@[simp] theorem respond_initialized (st : Status) (d : Word) (s : State) : (respond st d s).initialized = s.initialized := rfl
@[simp] theorem respond_poll (st : Status) (d : Word) (s : State) : (respond st d s).poll = s.poll := rfl
@[simp] theorem respond_rspStatus (st : Status) (d : Word) (s : State) : (respond st d s).rspStatus = st.code := rfl
@[simp] theorem respond_rspData (st : Status) (d : Word) (s : State) : (respond st d s).rspData = d := rfl
@[simp] theorem respond_clk (st : Status) (d : Word) (s : State) : (respond st d s).clk = s.clk := rfl
@[simp] theorem respond_dout (st : Status) (d : Word) (s : State) : (respond st d s).dout = s.dout := rfl
@[simp] theorem respond_weN (st : Status) (d : Word) (s : State) : (respond st d s).weN = s.weN := rfl
@[simp] theorem respond_dinInput (st : Status) (d : Word) (s : State) : (respond st d s).dinInput = s.dinInput := rfl
@[simp] theorem respond_tables (st : Status) (d : Word) (s : State) : (respond st d s).tables = s.tables := rfl
@[simp] theorem respond_time (st : Status) (d : Word) (s : State) : (respond st d s).time = s.time := rfl
@[simp] theorem respond_inputs (st : Status) (d : Word) (s : State) : (respond st d s).inputs = s.inputs := rfl
@[simp] theorem respond_dinLevels (st : Status) (d : Word) (s : State) : (respond st d s).dinLevels = s.dinLevels := rfl
@[simp] theorem respond_draws (st : Status) (d : Word) (s : State) : (respond st d s).draws = s.draws := rfl
@[simp] theorem respond_actions (st : Status) (d : Word) (s : State) : (respond st d s).actions = s.actions := rfl
@[simp] theorem respond_responses (st : Status) (d : Word) (s : State) : (respond st d s).responses = ⟨st.code, d⟩ :: s.responses := rfl
@[simp] theorem raise_led (st : Status) (s : State) : (raise st s).led = s.led := rfl
@[simp] theorem raise_display (st : Status) (s : State) : (raise st s).display = s.display := rfl
@[simp] theorem raise_displayEn (st : Status) (s : State) : (raise st s).displayEn = s.displayEn := rfl
@[simp] theorem raise_buzzer (st : Status) (s : State) : (raise st s).buzzer = s.buzzer := rfl
@[simp] theorem raise_celsius (st : Status) (s : State) : (raise st s).celsius = s.celsius := rfl
@[simp] theorem raise_button (st : Status) (s : State) : (raise st s).button = s.button := rfl
@[simp] theorem raise_initialized (st : Status) (s : State) : (raise st s).initialized = s.initialized := rfl
@[simp] theorem raise_poll (st : Status) (s : State) : (raise st s).poll = s.poll := rfl
@[simp] theorem raise_rspStatus (st : Status) (s : State) : (raise st s).rspStatus = st.code := rfl
@[simp] theorem raise_rspData (st : Status) (s : State) : (raise st s).rspData = 0#32 := rfl
@[simp] theorem raise_clk (st : Status) (s : State) : (raise st s).clk = s.clk := rfl
@[simp] theorem raise_dout (st : Status) (s : State) : (raise st s).dout = s.dout := rfl
@[simp] theorem raise_weN (st : Status) (s : State) : (raise st s).weN = s.weN := rfl
@[simp] theorem raise_dinInput (st : Status) (s : State) : (raise st s).dinInput = s.dinInput := rfl
@[simp] theorem raise_tables (st : Status) (s : State) : (raise st s).tables = s.tables := rfl
@[simp] theorem raise_time (st : Status) (s : State) : (raise st s).time = s.time := rfl
@[simp] theorem raise_inputs (st : Status) (s : State) : (raise st s).inputs = s.inputs := rfl
@[simp] theorem raise_dinLevels (st : Status) (s : State) : (raise st s).dinLevels = s.dinLevels := rfl
@[simp] theorem raise_draws (st : Status) (s : State) : (raise st s).draws = s.draws := rfl
@[simp] theorem raise_actions (st : Status) (s : State) : (raise st s).actions = s.actions := rfl
@[simp] theorem raise_responses (st : Status) (s : State) : (raise st s).responses = ⟨st.code, 0#32⟩ :: s.responses := rfl
@[simp] theorem ret_led (d : Word) (s : State) : (ret d s).led = s.led := rfl
@[simp] theorem ret_display (d : Word) (s : State) : (ret d s).display = s.display := rfl
@[simp] theorem ret_displayEn (d : Word) (s : State) : (ret d s).displayEn = s.displayEn := rfl
@[simp] theorem ret_buzzer (d : Word) (s : State) : (ret d s).buzzer = s.buzzer := rfl
@[simp] theorem ret_celsius (d : Word) (s : State) : (ret d s).celsius = s.celsius := rfl
@[simp] theorem ret_button (d : Word) (s : State) : (ret d s).button = s.button := rfl
@[simp] theorem ret_initialized (d : Word) (s : State) : (ret d s).initialized = s.initialized := rfl
@[simp] theorem ret_poll (d : Word) (s : State) : (ret d s).poll = s.poll := rfl
@[simp] theorem ret_rspStatus (d : Word) (s : State) : (ret d s).rspStatus = 0#3 := rfl
@[simp] theorem ret_rspData (d : Word) (s : State) : (ret d s).rspData = d := rfl
@[simp] theorem ret_clk (d : Word) (s : State) : (ret d s).clk = s.clk := rfl
@[simp] theorem ret_dout (d : Word) (s : State) : (ret d s).dout = s.dout := rfl
@[simp] theorem ret_weN (d : Word) (s : State) : (ret d s).weN = s.weN := rfl
@[simp] theorem ret_dinInput (d : Word) (s : State) : (ret d s).dinInput = s.dinInput := rfl
@[simp] theorem ret_tables (d : Word) (s : State) : (ret d s).tables = s.tables := rfl
@[simp] theorem ret_time (d : Word) (s : State) : (ret d s).time = s.time := rfl
@[simp] theorem ret_inputs (d : Word) (s : State) : (ret d s).inputs = s.inputs := rfl
@[simp] theorem ret_dinLevels (d : Word) (s : State) : (ret d s).dinLevels = s.dinLevels := rfl
@[simp] theorem ret_draws (d : Word) (s : State) : (ret d s).draws = s.draws := rfl
@[simp] theorem ret_actions (d : Word) (s : State) : (ret d s).actions = s.actions := rfl
@[simp] theorem ret_responses (d : Word) (s : State) : (ret d s).responses = ⟨0#3, d⟩ :: s.responses := rfl

/-! `act` (Machine/Ops.lean): the lines after each panel action -/

@[simp] theorem actSetClk_clk (v : Bool) (s : State) : (act (.setLine .clk v) s).clk = Level.ofBool v := rfl
@[simp] theorem actSetClk_dout (v : Bool) (s : State) : (act (.setLine .clk v) s).dout = s.dout := rfl
@[simp] theorem actSetClk_weN (v : Bool) (s : State) : (act (.setLine .clk v) s).weN = s.weN := rfl
@[simp] theorem actSetDout_clk (v : Bool) (s : State) : (act (.setLine .dout v) s).clk = s.clk := rfl
@[simp] theorem actSetDout_dout (v : Bool) (s : State) : (act (.setLine .dout v) s).dout = Level.ofBool v := rfl
@[simp] theorem actSetDout_weN (v : Bool) (s : State) : (act (.setLine .dout v) s).weN = s.weN := rfl
@[simp] theorem actSetWeN_clk (v : Bool) (s : State) : (act (.setLine .weN v) s).clk = s.clk := rfl
@[simp] theorem actSetWeN_dout (v : Bool) (s : State) : (act (.setLine .weN v) s).dout = s.dout := rfl
@[simp] theorem actSetWeN_weN (v : Bool) (s : State) : (act (.setLine .weN v) s).weN = Level.ofBool v := rfl
@[simp] theorem actWait_clk (n : Nat) (s : State) : (act (.wait n) s).clk = s.clk := rfl
@[simp] theorem actWait_dout (n : Nat) (s : State) : (act (.wait n) s).dout = s.dout := rfl
@[simp] theorem actWait_weN (n : Nat) (s : State) : (act (.wait n) s).weN = s.weN := rfl
@[simp] theorem actSample_clk (s : State) : (act .sample s).clk = s.clk := rfl
@[simp] theorem actSample_dout (s : State) : (act .sample s).dout = s.dout := rfl
@[simp] theorem actSample_weN (s : State) : (act .sample s).weN = s.weN := rfl

/-! `act`, any action: what no panel action changes, and what every one changes -/

@[simp] theorem act_led (a : Action) (s : State) : (act a s).led = s.led := by
  rcases a with ⟨l, v⟩ | n | _ <;> first | rfl | (cases l <;> rfl)
@[simp] theorem act_display (a : Action) (s : State) : (act a s).display = s.display := by
  rcases a with ⟨l, v⟩ | n | _ <;> first | rfl | (cases l <;> rfl)
@[simp] theorem act_displayEn (a : Action) (s : State) : (act a s).displayEn = s.displayEn := by
  rcases a with ⟨l, v⟩ | n | _ <;> first | rfl | (cases l <;> rfl)
@[simp] theorem act_buzzer (a : Action) (s : State) : (act a s).buzzer = s.buzzer := by
  rcases a with ⟨l, v⟩ | n | _ <;> first | rfl | (cases l <;> rfl)
@[simp] theorem act_celsius (a : Action) (s : State) : (act a s).celsius = s.celsius := by
  rcases a with ⟨l, v⟩ | n | _ <;> first | rfl | (cases l <;> rfl)
@[simp] theorem act_button (a : Action) (s : State) : (act a s).button = s.button := by
  rcases a with ⟨l, v⟩ | n | _ <;> first | rfl | (cases l <;> rfl)
@[simp] theorem act_initialized (a : Action) (s : State) : (act a s).initialized = s.initialized := by
  rcases a with ⟨l, v⟩ | n | _ <;> first | rfl | (cases l <;> rfl)
@[simp] theorem act_poll (a : Action) (s : State) : (act a s).poll = s.poll := by
  rcases a with ⟨l, v⟩ | n | _ <;> first | rfl | (cases l <;> rfl)
@[simp] theorem act_rspStatus (a : Action) (s : State) : (act a s).rspStatus = s.rspStatus := by
  rcases a with ⟨l, v⟩ | n | _ <;> first | rfl | (cases l <;> rfl)
@[simp] theorem act_rspData (a : Action) (s : State) : (act a s).rspData = s.rspData := by
  rcases a with ⟨l, v⟩ | n | _ <;> first | rfl | (cases l <;> rfl)
@[simp] theorem act_dinInput (a : Action) (s : State) : (act a s).dinInput = s.dinInput := by
  rcases a with ⟨l, v⟩ | n | _ <;> first | rfl | (cases l <;> rfl)
@[simp] theorem act_tables (a : Action) (s : State) : (act a s).tables = s.tables := by
  rcases a with ⟨l, v⟩ | n | _ <;> first | rfl | (cases l <;> rfl)
@[simp] theorem act_time (a : Action) (s : State) : (act a s).time = s.time + (nominalTime a + Config.freeDelay s.draws) := rfl
@[simp] theorem act_inputs (a : Action) (s : State) : (act a s).inputs = s.inputs := by
  rcases a with ⟨l, v⟩ | n | _ <;> first | rfl | (cases l <;> rfl)
@[simp] theorem act_dinLevels (a : Action) (s : State) : (act a s).dinLevels = s.dinLevels := by
  rcases a with ⟨l, v⟩ | n | _ <;> first | rfl | (cases l <;> rfl)
@[simp] theorem act_draws (a : Action) (s : State) : (act a s).draws = s.draws + 1 := rfl
@[simp] theorem act_actions (a : Action) (s : State) : (act a s).actions = a :: s.actions := rfl
@[simp] theorem act_responses (a : Action) (s : State) : (act a s).responses = s.responses := by
  rcases a with ⟨l, v⟩ | n | _ <;> first | rfl | (cases l <;> rfl)

@[simp] theorem nominalTime_setLine (l : Line) (v : Bool) : nominalTime (.setLine l v) = 0 := rfl
@[simp] theorem nominalTime_wait (n : Nat) : nominalTime (.wait n) = n := rfl
@[simp] theorem nominalTime_sample : nominalTime .sample = 0 := rfl

/-! The writes of Machine/Flags.lean -/

@[simp] theorem writeLed_led (l : Fin 5) (v : Bool) (s : State) : (writeLed l v s).led = s.led.set l v := rfl
@[simp] theorem writeLed_display (l : Fin 5) (v : Bool) (s : State) : (writeLed l v s).display = s.display := rfl
@[simp] theorem writeLed_displayEn (l : Fin 5) (v : Bool) (s : State) : (writeLed l v s).displayEn = s.displayEn := rfl
@[simp] theorem writeLed_buzzer (l : Fin 5) (v : Bool) (s : State) : (writeLed l v s).buzzer = s.buzzer := rfl
@[simp] theorem writeLed_celsius (l : Fin 5) (v : Bool) (s : State) : (writeLed l v s).celsius = s.celsius := rfl
@[simp] theorem writeLed_button (l : Fin 5) (v : Bool) (s : State) : (writeLed l v s).button = s.button := rfl
@[simp] theorem writeLed_initialized (l : Fin 5) (v : Bool) (s : State) : (writeLed l v s).initialized = s.initialized := rfl
@[simp] theorem writeLed_poll (l : Fin 5) (v : Bool) (s : State) : (writeLed l v s).poll = s.poll := rfl
@[simp] theorem writeLed_rspStatus (l : Fin 5) (v : Bool) (s : State) : (writeLed l v s).rspStatus = s.rspStatus := rfl
@[simp] theorem writeLed_rspData (l : Fin 5) (v : Bool) (s : State) : (writeLed l v s).rspData = s.rspData := rfl
@[simp] theorem writeLed_clk (l : Fin 5) (v : Bool) (s : State) : (writeLed l v s).clk = s.clk := rfl
@[simp] theorem writeLed_dout (l : Fin 5) (v : Bool) (s : State) : (writeLed l v s).dout = s.dout := rfl
@[simp] theorem writeLed_weN (l : Fin 5) (v : Bool) (s : State) : (writeLed l v s).weN = s.weN := rfl
@[simp] theorem writeLed_dinInput (l : Fin 5) (v : Bool) (s : State) : (writeLed l v s).dinInput = s.dinInput := rfl
@[simp] theorem writeLed_tables (l : Fin 5) (v : Bool) (s : State) : (writeLed l v s).tables = s.tables := rfl
@[simp] theorem writeLed_time (l : Fin 5) (v : Bool) (s : State) : (writeLed l v s).time = s.time := rfl
@[simp] theorem writeLed_inputs (l : Fin 5) (v : Bool) (s : State) : (writeLed l v s).inputs = s.inputs := rfl
@[simp] theorem writeLed_dinLevels (l : Fin 5) (v : Bool) (s : State) : (writeLed l v s).dinLevels = s.dinLevels := rfl
@[simp] theorem writeLed_draws (l : Fin 5) (v : Bool) (s : State) : (writeLed l v s).draws = s.draws := rfl
@[simp] theorem writeLed_actions (l : Fin 5) (v : Bool) (s : State) : (writeLed l v s).actions = s.actions := rfl
@[simp] theorem writeLed_responses (l : Fin 5) (v : Bool) (s : State) : (writeLed l v s).responses = s.responses := rfl
@[simp] theorem writeButton_led (b : Fin 7) (v : Bool) (s : State) : (writeButton b v s).led = s.led := rfl
@[simp] theorem writeButton_display (b : Fin 7) (v : Bool) (s : State) : (writeButton b v s).display = s.display := rfl
@[simp] theorem writeButton_displayEn (b : Fin 7) (v : Bool) (s : State) : (writeButton b v s).displayEn = s.displayEn := rfl
@[simp] theorem writeButton_buzzer (b : Fin 7) (v : Bool) (s : State) : (writeButton b v s).buzzer = s.buzzer := rfl
@[simp] theorem writeButton_celsius (b : Fin 7) (v : Bool) (s : State) : (writeButton b v s).celsius = s.celsius := rfl
@[simp] theorem writeButton_button (b : Fin 7) (v : Bool) (s : State) : (writeButton b v s).button = s.button.set b v := rfl
@[simp] theorem writeButton_initialized (b : Fin 7) (v : Bool) (s : State) : (writeButton b v s).initialized = s.initialized := rfl
@[simp] theorem writeButton_poll (b : Fin 7) (v : Bool) (s : State) : (writeButton b v s).poll = s.poll := rfl
@[simp] theorem writeButton_rspStatus (b : Fin 7) (v : Bool) (s : State) : (writeButton b v s).rspStatus = s.rspStatus := rfl
@[simp] theorem writeButton_rspData (b : Fin 7) (v : Bool) (s : State) : (writeButton b v s).rspData = s.rspData := rfl
@[simp] theorem writeButton_clk (b : Fin 7) (v : Bool) (s : State) : (writeButton b v s).clk = s.clk := rfl
@[simp] theorem writeButton_dout (b : Fin 7) (v : Bool) (s : State) : (writeButton b v s).dout = s.dout := rfl
@[simp] theorem writeButton_weN (b : Fin 7) (v : Bool) (s : State) : (writeButton b v s).weN = s.weN := rfl
@[simp] theorem writeButton_dinInput (b : Fin 7) (v : Bool) (s : State) : (writeButton b v s).dinInput = s.dinInput := rfl
@[simp] theorem writeButton_tables (b : Fin 7) (v : Bool) (s : State) : (writeButton b v s).tables = s.tables := rfl
@[simp] theorem writeButton_time (b : Fin 7) (v : Bool) (s : State) : (writeButton b v s).time = s.time := rfl
@[simp] theorem writeButton_inputs (b : Fin 7) (v : Bool) (s : State) : (writeButton b v s).inputs = s.inputs := rfl
@[simp] theorem writeButton_dinLevels (b : Fin 7) (v : Bool) (s : State) : (writeButton b v s).dinLevels = s.dinLevels := rfl
@[simp] theorem writeButton_draws (b : Fin 7) (v : Bool) (s : State) : (writeButton b v s).draws = s.draws := rfl
@[simp] theorem writeButton_actions (b : Fin 7) (v : Bool) (s : State) : (writeButton b v s).actions = s.actions := rfl
@[simp] theorem writeButton_responses (b : Fin 7) (v : Bool) (s : State) : (writeButton b v s).responses = s.responses := rfl
@[simp] theorem writeDisplayEn_led (v : Bool) (s : State) : (writeDisplayEn v s).led = s.led := rfl
@[simp] theorem writeDisplayEn_display (v : Bool) (s : State) : (writeDisplayEn v s).display = s.display := rfl
@[simp] theorem writeDisplayEn_displayEn (v : Bool) (s : State) : (writeDisplayEn v s).displayEn = v := rfl
@[simp] theorem writeDisplayEn_buzzer (v : Bool) (s : State) : (writeDisplayEn v s).buzzer = s.buzzer := rfl
@[simp] theorem writeDisplayEn_celsius (v : Bool) (s : State) : (writeDisplayEn v s).celsius = s.celsius := rfl
@[simp] theorem writeDisplayEn_button (v : Bool) (s : State) : (writeDisplayEn v s).button = s.button := rfl
@[simp] theorem writeDisplayEn_initialized (v : Bool) (s : State) : (writeDisplayEn v s).initialized = s.initialized := rfl
@[simp] theorem writeDisplayEn_poll (v : Bool) (s : State) : (writeDisplayEn v s).poll = s.poll := rfl
@[simp] theorem writeDisplayEn_rspStatus (v : Bool) (s : State) : (writeDisplayEn v s).rspStatus = s.rspStatus := rfl
@[simp] theorem writeDisplayEn_rspData (v : Bool) (s : State) : (writeDisplayEn v s).rspData = s.rspData := rfl
@[simp] theorem writeDisplayEn_clk (v : Bool) (s : State) : (writeDisplayEn v s).clk = s.clk := rfl
@[simp] theorem writeDisplayEn_dout (v : Bool) (s : State) : (writeDisplayEn v s).dout = s.dout := rfl
@[simp] theorem writeDisplayEn_weN (v : Bool) (s : State) : (writeDisplayEn v s).weN = s.weN := rfl
@[simp] theorem writeDisplayEn_dinInput (v : Bool) (s : State) : (writeDisplayEn v s).dinInput = s.dinInput := rfl
@[simp] theorem writeDisplayEn_tables (v : Bool) (s : State) : (writeDisplayEn v s).tables = s.tables := rfl
@[simp] theorem writeDisplayEn_time (v : Bool) (s : State) : (writeDisplayEn v s).time = s.time := rfl
@[simp] theorem writeDisplayEn_inputs (v : Bool) (s : State) : (writeDisplayEn v s).inputs = s.inputs := rfl
@[simp] theorem writeDisplayEn_dinLevels (v : Bool) (s : State) : (writeDisplayEn v s).dinLevels = s.dinLevels := rfl
@[simp] theorem writeDisplayEn_draws (v : Bool) (s : State) : (writeDisplayEn v s).draws = s.draws := rfl
@[simp] theorem writeDisplayEn_actions (v : Bool) (s : State) : (writeDisplayEn v s).actions = s.actions := rfl
@[simp] theorem writeDisplayEn_responses (v : Bool) (s : State) : (writeDisplayEn v s).responses = s.responses := rfl
@[simp] theorem writeBuzzer_led (v : Bool) (s : State) : (writeBuzzer v s).led = s.led := rfl
@[simp] theorem writeBuzzer_display (v : Bool) (s : State) : (writeBuzzer v s).display = s.display := rfl
@[simp] theorem writeBuzzer_displayEn (v : Bool) (s : State) : (writeBuzzer v s).displayEn = s.displayEn := rfl
@[simp] theorem writeBuzzer_buzzer (v : Bool) (s : State) : (writeBuzzer v s).buzzer = v := rfl
@[simp] theorem writeBuzzer_celsius (v : Bool) (s : State) : (writeBuzzer v s).celsius = s.celsius := rfl
@[simp] theorem writeBuzzer_button (v : Bool) (s : State) : (writeBuzzer v s).button = s.button := rfl
@[simp] theorem writeBuzzer_initialized (v : Bool) (s : State) : (writeBuzzer v s).initialized = s.initialized := rfl
@[simp] theorem writeBuzzer_poll (v : Bool) (s : State) : (writeBuzzer v s).poll = s.poll := rfl
@[simp] theorem writeBuzzer_rspStatus (v : Bool) (s : State) : (writeBuzzer v s).rspStatus = s.rspStatus := rfl
@[simp] theorem writeBuzzer_rspData (v : Bool) (s : State) : (writeBuzzer v s).rspData = s.rspData := rfl
@[simp] theorem writeBuzzer_clk (v : Bool) (s : State) : (writeBuzzer v s).clk = s.clk := rfl
@[simp] theorem writeBuzzer_dout (v : Bool) (s : State) : (writeBuzzer v s).dout = s.dout := rfl
@[simp] theorem writeBuzzer_weN (v : Bool) (s : State) : (writeBuzzer v s).weN = s.weN := rfl
@[simp] theorem writeBuzzer_dinInput (v : Bool) (s : State) : (writeBuzzer v s).dinInput = s.dinInput := rfl
@[simp] theorem writeBuzzer_tables (v : Bool) (s : State) : (writeBuzzer v s).tables = s.tables := rfl
@[simp] theorem writeBuzzer_time (v : Bool) (s : State) : (writeBuzzer v s).time = s.time := rfl
@[simp] theorem writeBuzzer_inputs (v : Bool) (s : State) : (writeBuzzer v s).inputs = s.inputs := rfl
@[simp] theorem writeBuzzer_dinLevels (v : Bool) (s : State) : (writeBuzzer v s).dinLevels = s.dinLevels := rfl
@[simp] theorem writeBuzzer_draws (v : Bool) (s : State) : (writeBuzzer v s).draws = s.draws := rfl
@[simp] theorem writeBuzzer_actions (v : Bool) (s : State) : (writeBuzzer v s).actions = s.actions := rfl
@[simp] theorem writeBuzzer_responses (v : Bool) (s : State) : (writeBuzzer v s).responses = s.responses := rfl
@[simp] theorem writeCelsius_led (v : Bool) (s : State) : (writeCelsius v s).led = s.led := rfl
@[simp] theorem writeCelsius_display (v : Bool) (s : State) : (writeCelsius v s).display = s.display := rfl
@[simp] theorem writeCelsius_displayEn (v : Bool) (s : State) : (writeCelsius v s).displayEn = s.displayEn := rfl
@[simp] theorem writeCelsius_buzzer (v : Bool) (s : State) : (writeCelsius v s).buzzer = s.buzzer := rfl
@[simp] theorem writeCelsius_celsius (v : Bool) (s : State) : (writeCelsius v s).celsius = v := rfl
@[simp] theorem writeCelsius_button (v : Bool) (s : State) : (writeCelsius v s).button = s.button := rfl
@[simp] theorem writeCelsius_initialized (v : Bool) (s : State) : (writeCelsius v s).initialized = s.initialized := rfl
@[simp] theorem writeCelsius_poll (v : Bool) (s : State) : (writeCelsius v s).poll = s.poll := rfl
@[simp] theorem writeCelsius_rspStatus (v : Bool) (s : State) : (writeCelsius v s).rspStatus = s.rspStatus := rfl
@[simp] theorem writeCelsius_rspData (v : Bool) (s : State) : (writeCelsius v s).rspData = s.rspData := rfl
@[simp] theorem writeCelsius_clk (v : Bool) (s : State) : (writeCelsius v s).clk = s.clk := rfl
@[simp] theorem writeCelsius_dout (v : Bool) (s : State) : (writeCelsius v s).dout = s.dout := rfl
@[simp] theorem writeCelsius_weN (v : Bool) (s : State) : (writeCelsius v s).weN = s.weN := rfl
@[simp] theorem writeCelsius_dinInput (v : Bool) (s : State) : (writeCelsius v s).dinInput = s.dinInput := rfl
@[simp] theorem writeCelsius_tables (v : Bool) (s : State) : (writeCelsius v s).tables = s.tables := rfl
@[simp] theorem writeCelsius_time (v : Bool) (s : State) : (writeCelsius v s).time = s.time := rfl
@[simp] theorem writeCelsius_inputs (v : Bool) (s : State) : (writeCelsius v s).inputs = s.inputs := rfl
@[simp] theorem writeCelsius_dinLevels (v : Bool) (s : State) : (writeCelsius v s).dinLevels = s.dinLevels := rfl
@[simp] theorem writeCelsius_draws (v : Bool) (s : State) : (writeCelsius v s).draws = s.draws := rfl
@[simp] theorem writeCelsius_actions (v : Bool) (s : State) : (writeCelsius v s).actions = s.actions := rfl
@[simp] theorem writeCelsius_responses (v : Bool) (s : State) : (writeCelsius v s).responses = s.responses := rfl
@[simp] theorem writeDisplay_led (v : Nat) (s : State) : (writeDisplay v s).led = s.led := rfl
@[simp] theorem writeDisplay_display (v : Nat) (s : State) : (writeDisplay v s).display = BitVec.ofNat 10 v := rfl
@[simp] theorem writeDisplay_displayEn (v : Nat) (s : State) : (writeDisplay v s).displayEn = s.displayEn := rfl
@[simp] theorem writeDisplay_buzzer (v : Nat) (s : State) : (writeDisplay v s).buzzer = s.buzzer := rfl
@[simp] theorem writeDisplay_celsius (v : Nat) (s : State) : (writeDisplay v s).celsius = s.celsius := rfl
@[simp] theorem writeDisplay_button (v : Nat) (s : State) : (writeDisplay v s).button = s.button := rfl
@[simp] theorem writeDisplay_initialized (v : Nat) (s : State) : (writeDisplay v s).initialized = s.initialized := rfl
@[simp] theorem writeDisplay_poll (v : Nat) (s : State) : (writeDisplay v s).poll = s.poll := rfl
@[simp] theorem writeDisplay_rspStatus (v : Nat) (s : State) : (writeDisplay v s).rspStatus = s.rspStatus := rfl
@[simp] theorem writeDisplay_rspData (v : Nat) (s : State) : (writeDisplay v s).rspData = s.rspData := rfl
@[simp] theorem writeDisplay_clk (v : Nat) (s : State) : (writeDisplay v s).clk = s.clk := rfl
@[simp] theorem writeDisplay_dout (v : Nat) (s : State) : (writeDisplay v s).dout = s.dout := rfl
@[simp] theorem writeDisplay_weN (v : Nat) (s : State) : (writeDisplay v s).weN = s.weN := rfl
@[simp] theorem writeDisplay_dinInput (v : Nat) (s : State) : (writeDisplay v s).dinInput = s.dinInput := rfl
@[simp] theorem writeDisplay_tables (v : Nat) (s : State) : (writeDisplay v s).tables = s.tables := rfl
@[simp] theorem writeDisplay_time (v : Nat) (s : State) : (writeDisplay v s).time = s.time := rfl
@[simp] theorem writeDisplay_inputs (v : Nat) (s : State) : (writeDisplay v s).inputs = s.inputs := rfl
@[simp] theorem writeDisplay_dinLevels (v : Nat) (s : State) : (writeDisplay v s).dinLevels = s.dinLevels := rfl
@[simp] theorem writeDisplay_draws (v : Nat) (s : State) : (writeDisplay v s).draws = s.draws := rfl
@[simp] theorem writeDisplay_actions (v : Nat) (s : State) : (writeDisplay v s).actions = s.actions := rfl
@[simp] theorem writeDisplay_responses (v : Nat) (s : State) : (writeDisplay v s).responses = s.responses := rfl

/-! `takeReset` (Machine/Ops.lean) -/

@[simp] theorem takeReset_led (s : State) : (takeReset s).led = #v[false, false, false, false, false] := rfl
@[simp] theorem takeReset_display (s : State) : (takeReset s).display = 20#10 := rfl
@[simp] theorem takeReset_displayEn (s : State) : (takeReset s).displayEn = true := rfl
@[simp] theorem takeReset_buzzer (s : State) : (takeReset s).buzzer = false := rfl
@[simp] theorem takeReset_celsius (s : State) : (takeReset s).celsius = true := rfl
@[simp] theorem takeReset_button (s : State) : (takeReset s).button = Config.freeButtons s.draws := rfl
@[simp] theorem takeReset_initialized (s : State) : (takeReset s).initialized = false := rfl
@[simp] theorem takeReset_poll (s : State) : (takeReset s).poll = none := rfl
@[simp] theorem takeReset_rspStatus (s : State) : (takeReset s).rspStatus = 0#3 := rfl
@[simp] theorem takeReset_rspData (s : State) : (takeReset s).rspData = 0#32 := rfl
@[simp] theorem takeReset_clk (s : State) : (takeReset s).clk = .z := rfl
@[simp] theorem takeReset_dout (s : State) : (takeReset s).dout = .z := rfl
@[simp] theorem takeReset_weN (s : State) : (takeReset s).weN = .z := rfl
@[simp] theorem takeReset_dinInput (s : State) : (takeReset s).dinInput = true := rfl
@[simp] theorem takeReset_tables (s : State) : (takeReset s).tables = s.tables := rfl
@[simp] theorem takeReset_time (s : State) : (takeReset s).time = s.time := rfl
@[simp] theorem takeReset_inputs (s : State) : (takeReset s).inputs = s.inputs := rfl
@[simp] theorem takeReset_dinLevels (s : State) : (takeReset s).dinLevels = s.dinLevels := rfl
@[simp] theorem takeReset_draws (s : State) : (takeReset s).draws = s.draws + 1 := rfl
@[simp] theorem takeReset_actions (s : State) : (takeReset s).actions = s.actions := rfl
@[simp] theorem takeReset_responses (s : State) : (takeReset s).responses = s.responses := rfl

end Sys2Proof.Machine
end

