-- ==== Sys2Proof/Laws/Ops.lean ====
section
/-! SUPPORT. What each shared operation can do, said once. -/

namespace Sys2Proof.Machine

/-- An LED identifier operand up to 4 is that LED. -/
theorem ledOperand_of_le {id : Nat} (h : id ≤ 4) : ledOperand id = some ⟨id, by omega⟩ := by
  simp [ledOperand, show id < 5 by omega]

/-- No LED has an identifier above 4. -/
theorem ledOperand_of_gt {id : Nat} (h : 4 < id) : ledOperand id = none := by
  simp [ledOperand, show ¬ id < 5 by omega]

/-- A button identifier operand up to 6 is that button. -/
theorem buttonOperand_of_le {id : Nat} (h : id ≤ 6) : buttonOperand id = some ⟨id, by omega⟩ := by
  simp [buttonOperand, show id < 7 by omega]

/-- No button has an identifier above 6. -/
theorem buttonOperand_of_gt {id : Nat} (h : 6 < id) : buttonOperand id = none := by
  simp [buttonOperand, show ¬ id < 7 by omega]

/-- An LED command on a legal identifier runs on that LED. -/
theorem onLed_of_le {id : Nat} (h : id ≤ 4) (k : Fin 5 → State → State) (s : State) :
    onLed id k s = k ⟨id, by omega⟩ s := by
  simp [onLed, ledOperand_of_le h]

/-- An LED command on another identifier raises OUT_OF_BOUNDS. -/
theorem onLed_of_gt {id : Nat} (h : 4 < id) (k : Fin 5 → State → State) (s : State) :
    onLed id k s = raise .outOfBounds s := by
  simp [onLed, ledOperand_of_gt h]

/-- Everything an LED command can do. -/
theorem onLed_cases (id : Nat) (k : Fin 5 → State → State) (s : State) :
    (∃ l : Fin 5, l.val = id ∧ onLed id k s = k l s) ∨ (4 < id ∧ onLed id k s = raise .outOfBounds s) := by
  by_cases h : id ≤ 4
  · exact .inl ⟨⟨id, by omega⟩, rfl, onLed_of_le h k s⟩
  · exact .inr ⟨by omega, onLed_of_gt (by omega) k s⟩

/-- No status has the reserved code 7. -/
theorem Status.code_ne_seven (st : Status) : st.code ≠ 7#3 := by
  cases st <;> decide

/-- INIT's line actions: the three lines end high, and DIN is an input. -/
theorem initLines_lines (s : State) :
    (initLines s).clk = .high ∧ (initLines s).dout = .high ∧ (initLines s).weN = .high ∧
      (initLines s).dinInput = true :=
  ⟨rfl, rfl, rfl, rfl⟩

end Sys2Proof.Machine
end

