-- ==== Sys2Proof/Laws/PerInstr.lean ====
section
/-! SUPPORT. Lemmas made per command: the word of a command selects the row of that command. -/

namespace Sys2Proof.Laws.Selected

/-- The command's word is selected by a row of the opcode map, `(w & mask) == OP` (30_encoding.md R71), and that row is the
one whose opcode the word carries. -/
def Statement (i : Instr) : Prop :=
  ∃ r ∈ opcodeMap, r.selects (encode i) = true ∧ r.op = (encode i).extractLsb' 0 8

/-- The statement for the row at a place of the map. -/
theorem of_row (k : Fin 17) {i : Instr} (h : encode i &&& opcodeMap[k].format.mask = opcodeMap[k].op.setWidth 32) :
    Statement i :=
  ⟨opcodeMap[k], List.getElem_mem _, by simpa [Row.selects] using h,
    Row.op_of_selects (by simpa [Row.selects] using h)⟩

theorem init : Statement (.init) := of_row 0 (wordN_masked _)

theorem poll : Statement (.poll) := of_row 1 (wordN_masked _)

theorem setLed (id : Nat) (state : Bool) : Statement (.setLed id state) := of_row 2 (wordIS_masked _ id state)

theorem clearLed (id : Nat) : Statement (.clearLed id) := of_row 3 (wordI_masked _ id)

theorem toggleLed (id : Nat) : Statement (.toggleLed id) := of_row 4 (wordI_masked _ id)

theorem getLed (id : Nat) : Statement (.getLed id) := of_row 5 (wordI_masked _ id)

theorem setDisplay (value : Nat) : Statement (.setDisplay value) := of_row 6 (wordV_masked _ _)

theorem getDisplay : Statement (.getDisplay) := of_row 7 (wordN_masked _)

theorem enableDisplay (state : Bool) : Statement (.enableDisplay state) := of_row 8 (wordS_masked _ state)

theorem isDisplayEnabled : Statement (.isDisplayEnabled) := of_row 9 (wordN_masked _)

theorem setBuzzer (state : Bool) : Statement (.setBuzzer state) := of_row 10 (wordS_masked _ state)

theorem isBuzzing : Statement (.isBuzzing) := of_row 11 (wordN_masked _)

theorem setCelsius (state : Bool) : Statement (.setCelsius state) := of_row 12 (wordS_masked _ state)

theorem isCelsius : Statement (.isCelsius) := of_row 13 (wordN_masked _)

theorem getButton (id : Nat) : Statement (.getButton id) := of_row 14 (wordI_masked _ id)

theorem cToF (t : Int) : Statement (.cToF t) := of_row 15 (wordV_masked _ _)

theorem fToC (t : Int) : Statement (.fToC t) := of_row 16 (wordV_masked _ _)

end Sys2Proof.Laws.Selected
end

