-- ==== Sys2Proof/Laws/Step.lean ====
section
/-! SUPPORT. Everything a step can do, said once: one equation per host event, and the inversion. -/

namespace Sys2Proof.Machine

/-- A reset, from any state. -/
theorem step_reset {s : State} {rest : List HostEvent} (h : s.inputs = .reset :: rest) :
    step s = .next (takeReset { s with inputs := rest }) := by
  simp [step, takeEvent, h, onEvent]

/-- The reserved status stops every step but a reset. -/
theorem step_reserved {s : State} (h : ∀ rest, s.inputs ≠ .reset :: rest) (hs : s.rspStatus = 7#3) :
    step s = .fault .reservedStatus := by
  unfold step takeEvent
  split
  · next e rest he =>
    cases e with
    | reset => exact absurd he (h rest)
    | word w => simp [onEvent, guarded, hs]
    | quiet => simp [onEvent, guarded, hs]
  · simp [onEvent, guarded, hs]

/-- A word presented while a POLL runs. -/
theorem step_word_busy {s : State} {w : Word} {rest : List HostEvent} {p : Sequencer} (h : s.inputs = .word w :: rest)
    (hs : s.rspStatus ≠ 7#3) (hp : s.poll = some p) : step s = .next (raise .busy { s with inputs := rest }) := by
  simp [step, takeEvent, h, onEvent, guarded, hs, presentWord, State.busy, hp]

/-- A word that is no command, presented to an idle SPC. -/
theorem step_word_illegal {s : State} {w : Word} {rest : List HostEvent} {e : DecodeError}
    (h : s.inputs = .word w :: rest) (hs : s.rspStatus ≠ 7#3) (hp : s.poll = none) (hd : decode w = .error e) :
    step s = .next (raise .illegalCommand { s with inputs := rest }) := by
  simp [step, takeEvent, h, onEvent, guarded, hs, presentWord, State.busy, hp, hd]

/-- Nothing presented, a POLL running: with an empty list of events. -/
theorem step_running {s : State} {p : Sequencer} (h : s.inputs = []) (hs : s.rspStatus ≠ 7#3) (hp : s.poll = some p) :
    step s = .next (runSequencer p s) := by
  simp [step, takeEvent, h, onEvent, guarded, hs, quietStep, hp]

/-- Nothing presented, a POLL running: with a quiet event taken. -/
theorem step_quiet_running {s : State} {rest : List HostEvent} {p : Sequencer} (h : s.inputs = .quiet :: rest)
    (hs : s.rspStatus ≠ 7#3) (hp : s.poll = some p) : step s = .next (runSequencer p { s with inputs := rest }) := by
  simp [step, takeEvent, h, onEvent, guarded, hs, quietStep, hp]

/-- `s` with this step's host event taken. -/
def taken (s : State) : State := { s with inputs := s.inputs.tail }

/-- The host event of this step: the first listed, or nothing presented. -/
def event (s : State) : HostEvent := s.inputs.head?.getD .quiet

/-- A step is its event on the state with the event taken. -/
theorem step_eq (s : State) : step s = onEvent (event s) (taken s) := by
  rcases h : s.inputs with _ | ⟨e, rest⟩
  · have : taken s = s := by cases s; simp_all [taken]
    simp [step, takeEvent, h, event, this]
  · simp [step, takeEvent, h, event, taken]

/-- Everything a step can do that answers a next state: a reset, a BUSY answer, an ILLEGAL_COMMAND answer, a command on
an idle SPC, an action of the running POLL, or nothing. -/
theorem step_cases {s t : State} (h : step s = .next t) :
    (event s = .reset ∧ t = takeReset (taken s)) ∨
    (s.rspStatus ≠ 7#3 ∧
      ((∃ w p, event s = .word w ∧ s.poll = some p ∧ t = raise .busy (taken s)) ∨
       (∃ w e, event s = .word w ∧ s.poll = none ∧ decode w = .error e ∧ t = raise .illegalCommand (taken s)) ∨
       (∃ w i, event s = .word w ∧ s.poll = none ∧ decode w = .ok i ∧ exec i (taken s) = .next t) ∨
       (∃ p, event s = .quiet ∧ s.poll = some p ∧ t = runSequencer p (taken s)) ∨
       (event s = .quiet ∧ s.poll = none ∧ t = taken s))) := by
  rw [step_eq] at h
  have hst : (taken s).rspStatus = s.rspStatus := rfl
  have hpoll : (taken s).poll = s.poll := rfl
  generalize taken s = s' at h hst hpoll ⊢
  cases he : event s with
  | reset =>
    simp [he, onEvent] at h
    exact .inl ⟨rfl, h.symm⟩
  | word w =>
    by_cases hs : s.rspStatus = 7#3
    · simp [he, onEvent, guarded, hst, hs] at h
    · simp only [he, onEvent, guarded, hst, hs, if_false, presentWord, State.busy, hpoll] at h
      cases hp : s.poll with
      | some p =>
        simp [hp] at h
        exact .inr ⟨hs, .inl ⟨w, p, rfl, rfl, h.symm⟩⟩
      | none =>
        cases hd : decode w with
        | error e =>
          simp [hp, hd] at h
          exact .inr ⟨hs, .inr (.inl ⟨w, e, rfl, rfl, hd, h.symm⟩)⟩
        | ok i =>
          simp [hp, hd] at h
          exact .inr ⟨hs, .inr (.inr (.inl ⟨w, i, rfl, rfl, hd, h⟩))⟩
  | quiet =>
    by_cases hs : s.rspStatus = 7#3
    · simp [he, onEvent, guarded, hst, hs] at h
    · simp only [he, onEvent, guarded, hst, hs, if_false, quietStep, hpoll] at h
      cases hp : s.poll with
      | some p =>
        simp [hp] at h
        exact .inr ⟨hs, .inr (.inr (.inr (.inl ⟨p, rfl, rfl, h.symm⟩)))⟩
      | none =>
        simp [hp] at h
        exact .inr ⟨hs, .inr (.inr (.inr (.inr ⟨rfl, rfl, h.symm⟩)))⟩

/-- A run whose first step answers a next state goes on from there. -/
theorem run_succ {s t : State} (h : step s = .next t) (n : Nat) :
    Host.Core.run Sys2Proof.core (n + 1) s = Host.Core.run Sys2Proof.core n t := by
  have h' : Sys2Proof.core.step s = .next t := h
  simp only [Host.Core.run, h']

/-- Two runs one after the other are one run. -/
theorem run_add (m n : Nat) (s : State) :
    Host.Core.run Sys2Proof.core (m + n) s =
      match Host.Core.run Sys2Proof.core m s with
      | .next t => Host.Core.run Sys2Proof.core n t
      | .fault r => .fault r
      | .refused r => .refused r := by
  induction m generalizing s with
  | zero => simp [Host.Core.run]
  | succ m ih =>
    rw [Nat.succ_add]
    simp only [Host.Core.run]
    cases Sys2Proof.core.step s with
    | next t => exact ih t
    | fault r => rfl
    | refused r => rfl

end Sys2Proof.Machine
end

