-- ==== Sys2Proof/Laws/Poll.lean ====
section
/-! SUPPORT. The running POLL: one action, a list of actions, the frame of one bit, and the lengths of the sequence. -/

namespace Sys2Proof.Machine

open Sys2Proof.Safety

/-! ## One action -/

/-- The sequencer and the state after one action, `rest` being what is left. -/
def perform (op : SeqOp) (rest : List SeqOp) (x : Sequencer × State) : Sequencer × State :=
  ((x.1.update x.2.tables (dinLevel x.2) op).advance rest, store op (dinLevel x.2) (act (x.1.action op) x.2))

/-- An action that is not the last. -/
theorem runSequencer_more {p : Sequencer} {op next : SeqOp} {rest : List SeqOp} (h : p.todo = op :: next :: rest)
    (s : State) : runSequencer p s =
      { (perform op (next :: rest) (p, s)).2 with poll := some (perform op (next :: rest) (p, s)).1 } := by
  simp [runSequencer, h, settle, Sequencer.advance, perform]

/-- The last action, and the response. -/
theorem runSequencer_last {p : Sequencer} {op : SeqOp} (h : p.todo = [op]) (s : State) :
    runSequencer p s = finishPoll (perform op [] (p, s)).1 (perform op [] (p, s)).2 := by
  simp [runSequencer, h, settle, Sequencer.advance, perform]

@[simp] theorem perform_todo (op : SeqOp) (rest : List SeqOp) (x : Sequencer × State) :
    (perform op rest x).1.todo = rest := rfl

@[simp] theorem perform_seq (op : SeqOp) (rest : List SeqOp) (x : Sequencer × State) :
    (perform op rest x).1.seq = x.1.seq + 1 := by
  cases op <;> rfl

@[simp] theorem perform_waitLeft (op : SeqOp) (rest : List SeqOp) (x : Sequencer × State) :
    (perform op rest x).1.waitLeft = headWait rest := rfl

@[simp] theorem perform_idle (op : SeqOp) (rest : List SeqOp) (x : Sequencer × State) :
    (perform op rest x).1.idle = x.1.idle := by
  cases op <;> rfl

@[simp] theorem perform_ledFrame (op : SeqOp) (rest : List SeqOp) (x : Sequencer × State) :
    (perform op rest x).1.ledFrame = x.1.ledFrame := by
  cases op <;> rfl

@[simp] theorem perform_disp (op : SeqOp) (rest : List SeqOp) (x : Sequencer × State) :
    (perform op rest x).1.disp = x.1.disp := by
  cases op <;> rfl

/-- An action does not look at the sequencer a state holds. -/
theorem perform_poll (op : SeqOp) (rest : List SeqOp) (p : Sequencer) (s : State) (o : Option Sequencer) :
    perform op rest (p, { s with poll := o }) =
      ((perform op rest (p, s)).1, { (perform op rest (p, s)).2 with poll := o }) := by
  cases op <;> rfl

/-- The fields no action of a POLL changes. -/
theorem perform_keeps (op : SeqOp) (rest : List SeqOp) (x : Sequencer × State) :
    (perform op rest x).2.led = x.2.led ∧ (perform op rest x).2.display = x.2.display ∧
    (perform op rest x).2.displayEn = x.2.displayEn ∧ (perform op rest x).2.buzzer = x.2.buzzer ∧
    (perform op rest x).2.celsius = x.2.celsius ∧ (perform op rest x).2.initialized = x.2.initialized ∧
    (perform op rest x).2.rspStatus = x.2.rspStatus ∧ (perform op rest x).2.rspData = x.2.rspData ∧
    (perform op rest x).2.dinInput = x.2.dinInput ∧ (perform op rest x).2.tables = x.2.tables ∧
    (perform op rest x).2.inputs = x.2.inputs ∧ (perform op rest x).2.responses = x.2.responses ∧
    (perform op rest x).2.poll = x.2.poll := by
  cases op <;> exact ⟨rfl, rfl, rfl, rfl, rfl, rfl, rfl, rfl, rfl, rfl, rfl, rfl, rfl⟩

/-- An action does not look at the host events a state lists. -/
theorem perform_inputs (op : SeqOp) (rest : List SeqOp) (p : Sequencer) (s : State) (l : List HostEvent) :
    perform op rest (p, { s with inputs := l }) =
      ((perform op rest (p, s)).1, { (perform op rest (p, s)).2 with inputs := l }) := by
  cases op <;> rfl

/-! ## Nothing presented -/

theorem quietFor_nil {n : Nat} {s : State} (h : s.inputs = []) : QuietFor n s := by
  simp [QuietFor, h]

/-- Nothing presented in `n + 1` steps: nothing in this one, and nothing in `n` steps once its event is taken. -/
theorem quietFor_succ {n : Nat} {s : State} (h : QuietFor (n + 1) s) : event s = .quiet ∧ QuietFor n (taken s) := by
  rcases hin : s.inputs with _ | ⟨e, rest⟩
  · simp [event, QuietFor, taken, hin]
  · simp only [QuietFor, hin, List.take_succ_cons, List.mem_cons, forall_eq_or_imp] at h
    simpa [event, QuietFor, taken, hin] using h

/-- Nothing presented, a POLL running: the next action, on the state with this step's event taken. -/
theorem step_quietFor {n : Nat} {s : State} {p : Sequencer} (h : QuietFor (n + 1) s) (hs : s.rspStatus ≠ 7#3)
    (hp : s.poll = some p) : step s = .next (runSequencer p (taken s)) := by
  simp [step_eq, (quietFor_succ h).1, onEvent, guarded, taken, hs, quietStep, hp]

/-! ## A list of actions -/

/-- The sequencer and the state after the actions of a list, `after` being what is left after it. -/
def performAll (after : List SeqOp) : List SeqOp → Sequencer × State → Sequencer × State
  | [], x => x
  | op :: ops, x => performAll after ops (perform op (ops ++ after) x)

/-- One list after the other. -/
theorem performAll_append (after ops ops' : List SeqOp) (x : Sequencer × State) :
    performAll after (ops ++ ops') x = performAll after ops' (performAll (ops' ++ after) ops x) := by
  induction ops generalizing x with
  | nil => rfl
  | cons op ops ih => simp [performAll, ih]

/-- A list of actions does not look at the host events a state lists. -/
theorem performAll_inputs (after ops : List SeqOp) (p : Sequencer) (s : State) (l : List HostEvent) :
    performAll after ops (p, { s with inputs := l }) =
      ((performAll after ops (p, s)).1, { (performAll after ops (p, s)).2 with inputs := l }) := by
  induction ops generalizing p s with
  | nil => rfl
  | cons op ops ih =>
    simp only [performAll, perform_inputs]
    exact ih _ _

/-- A list of actions with more to come is so many steps, in which so many host events are taken. -/
theorem run_performAll (after : List SeqOp) (hafter : after ≠ []) (ops : List SeqOp) (p : Sequencer) (s : State)
    (hin : QuietFor ops.length s) (hst : s.rspStatus ≠ 7#3) (h : p.todo = ops ++ after) :
    Host.Core.run Sys2Proof.core ops.length { s with poll := some p } =
      .next { (performAll after ops (p, s)).2 with
        poll := some (performAll after ops (p, s)).1
        inputs := s.inputs.drop ops.length } := by
  induction ops generalizing p s with
  | nil => rfl
  | cons op ops ih =>
    have hk := perform_keeps op (ops ++ after) (p, s)
    generalize hx : perform op (ops ++ after) (p, s) = x at hk
    have hstep : step { s with poll := some p } = .next { x.2 with poll := some x.1, inputs := s.inputs.tail } := by
      rw [step_quietFor (n := ops.length) (p := p) (by exact hin) (by exact hst) rfl]
      obtain ⟨next, rest, hnr⟩ : ∃ next rest, ops ++ after = next :: rest := by
        cases hh : ops ++ after with
        | nil => simp at hh; exact absurd hh.2 hafter
        | cons next rest => exact ⟨next, rest, rfl⟩
      rw [runSequencer_more (op := op) (next := next) (rest := rest) (by rw [h, List.cons_append, hnr]), ← hx, hnr]
      unfold taken
      rw [perform_inputs op _ p { s with poll := some p }, perform_poll]
    have hrest := ih x.1 { x.2 with inputs := s.inputs.tail } (by exact (quietFor_succ hin).2)
      (by rw [hk.2.2.2.2.2.2.1]; exact hst) (by rw [← hx]; rfl)
    rw [List.length_cons, run_succ hstep]
    rw [performAll_inputs] at hrest
    simpa [performAll, hx] using hrest

/-! ## Panel actions without a sample -/

/-- The state after a list of panel actions, the first first. -/
def actAll (actions : List Action) (s : State) : State := actions.foldl (fun s a => act a s) s

@[simp] theorem actAll_nil (s : State) : actAll [] s = s := rfl

@[simp] theorem actAll_cons (a : Action) (l : List Action) (s : State) : actAll (a :: l) s = actAll l (act a s) := rfl

theorem actAll_append (l l' : List Action) (s : State) : actAll (l ++ l') s = actAll l' (actAll l s) := by
  simp [actAll]

/-- The time of so many actions, split. -/
theorem extraTime_add (d m n : Nat) : extraTime d (m + n) = extraTime d m + extraTime (d + m) n := by
  induction m generalizing d with
  | zero => simp [extraTime]
  | succ m ih =>
    rw [Nat.succ_add]
    simp only [extraTime, ih]
    rw [show d + 1 + m = d + (m + 1) by omega]
    omega

/-- The nominal time of a list of actions (60_exceptions.md R209). -/
def nominalSum (l : List Action) : Nat := (l.map nominalTime).sum

theorem nominalSum_append (l l' : List Action) : nominalSum (l ++ l') = nominalSum l + nominalSum l' := by
  simp [nominalSum]

theorem actAll_actions (l : List Action) (s : State) : (actAll l s).actions = l.reverse ++ s.actions := by
  induction l generalizing s with
  | nil => rfl
  | cons a l ih => simp [ih]

theorem actAll_draws (l : List Action) (s : State) : (actAll l s).draws = s.draws + l.length := by
  induction l generalizing s with
  | nil => rfl
  | cons a l ih => simp [ih]; omega

theorem actAll_time (l : List Action) (s : State) :
    (actAll l s).time = s.time + nominalSum l + extraTime s.draws l.length := by
  induction l generalizing s with
  | nil => simp [nominalSum, extraTime]
  | cons a l ih => simp [ih, nominalSum, extraTime]; omega

/-- What panel actions never change. -/
theorem actAll_keeps (l : List Action) (s : State) :
    (actAll l s).led = s.led ∧ (actAll l s).display = s.display ∧ (actAll l s).displayEn = s.displayEn ∧
    (actAll l s).buzzer = s.buzzer ∧ (actAll l s).celsius = s.celsius ∧ (actAll l s).button = s.button ∧
    (actAll l s).initialized = s.initialized ∧ (actAll l s).poll = s.poll ∧ (actAll l s).rspStatus = s.rspStatus ∧
    (actAll l s).rspData = s.rspData ∧ (actAll l s).dinInput = s.dinInput ∧ (actAll l s).tables = s.tables ∧
    (actAll l s).inputs = s.inputs ∧ (actAll l s).dinLevels = s.dinLevels ∧
    (actAll l s).responses = s.responses := by
  induction l generalizing s with
  | nil => simp
  | cons a l ih => simpa using ih (act a s)

/-! ## One bit of a transfer -/

/-- The six actions of bit `i` of the frame being shifted (40_transport.md R101). -/
theorem performAll_bit (after : List SeqOp) (i : Nat) (p : Sequencer) (s : State) :
    performAll after (bitOps i) (p, s) =
      ({ p with seq := p.seq + 6, bitIndex := i, waitLeft := headWait after, todo := after },
        actAll (bitActions (p.frame.getLsbD i)) s) := by
  rfl

/-- The bits of a list, one after the other. -/
theorem performAll_bits (l : List Nat) (i : Nat) (after : List SeqOp) (p : Sequencer) (s : State) :
    performAll after ((l ++ [i]).flatMap bitOps) (p, s) =
      ({ p with seq := p.seq + 6 * (l.length + 1), bitIndex := i, waitLeft := headWait after, todo := after },
        actAll ((l ++ [i]).flatMap (fun k => bitActions (p.frame.getLsbD k))) s) := by
  induction l generalizing p s with
  | nil => simpa using performAll_bit after i p s
  | cons k l ih =>
    rw [List.cons_append, List.flatMap_cons, performAll_append, performAll_bit, ih, List.flatMap_cons, actAll_append]
    simp
    omega

/-! ## A transfer -/

/-- TRANSFER of a frame (40_transport.md R101): the sequencer and the state after its 98 actions. -/
theorem performAll_transfer (after : List SeqOp) (kind : FrameKind) (p : Sequencer) (s : State) :
    performAll after (transferOps kind) (p, s) =
      ({ p with seq := p.seq + 98, frame := p.pick s.tables kind, bitIndex := 15, waitLeft := headWait after,
                todo := after },
        actAll (transferActions (p.pick s.tables kind)) s) := by
  have hb : bitOrder = [0,1,2,3,4,5,6,7,8,9,10,11,12,13,14] ++ [15] := rfl
  have h := performAll_bits [0,1,2,3,4,5,6,7,8,9,10,11,12,13,14] 15
  unfold transferOps
  rw [hb]
  simp only [performAll]
  rw [performAll_append]
  generalize hx : perform (SeqOp.beginTransfer kind) _ (p, s) = x
  obtain ⟨q, s'⟩ := x
  rw [h]
  cases hx
  rfl

/-! ## A pass, a scan step -/

/-- The sequencer after `n` actions that end a transfer of `f` and take no sample, `after` being what is left. -/
def Sequencer.moved (p : Sequencer) (n : Nat) (f : Frame) (after : List SeqOp) : Sequencer :=
  { p with seq := p.seq + n, frame := f, bitIndex := 15, waitLeft := headWait after, todo := after }

theorem Sequencer.pick_moved (p : Sequencer) (n : Nat) (f : Frame) (after : List SeqOp) (t : Tables) (k : FrameKind) :
    (p.moved n f after).pick t k = p.pick t k := by
  cases k <;> rfl

theorem Sequencer.moved_moved (p : Sequencer) (n m : Nat) (f g : Frame) (a b : List SeqOp) :
    (p.moved n f a).moved m g b = p.moved (n + m) g b := by
  simp [Sequencer.moved]
  omega

theorem actAll_tables (l : List Action) (s : State) : (actAll l s).tables = s.tables :=
  (actAll_keeps l s).2.2.2.2.2.2.2.2.2.2.2.1

/-- A transfer and the wait after it. -/
theorem performAll_transfer_wait (after : List SeqOp) (kind : FrameKind) (n : Nat) (p : Sequencer) (s : State) :
    performAll after (transferOps kind ++ [.wait n]) (p, s) =
      (p.moved 99 (p.pick s.tables kind) after, actAll (transferActions (p.pick s.tables kind) ++ [.wait n]) s) := by
  rw [performAll_append, performAll_transfer, actAll_append]
  rfl

/-- A display position: the idle frame, its display frame, the settle delay (43_poll.md R183 (b)). -/
theorem performAll_position (after : List SeqOp) (q : Fin 4) (p : Sequencer) (s : State) :
    performAll after (positionOps q) (p, s) =
      (p.moved 197 (p.pick s.tables (.display q)) after,
        actAll (transferActions (p.pick s.tables .idle) ++
          (transferActions (p.pick s.tables (.display q)) ++ [.wait 260])) s) := by
  have h := performAll_transfer_wait after (.display q) tSettle
    (p.moved 98 (p.pick s.tables .idle) ((transferOps (.display q) ++ [.wait tSettle]) ++ after))
    (actAll (transferActions (p.pick s.tables .idle)) s)
  rw [Sequencer.pick_moved, actAll_tables, Sequencer.moved_moved] at h
  unfold positionOps
  rw [performAll_append, performAll_transfer, actAll_append]
  exact h

/-- The actions of a refresh pass that sends the sequencer's snapshot frames (43_poll.md R183). -/
def Sequencer.passActions (p : Sequencer) (t : Tables) : List Action :=
  transferActions (p.pick t .led) ++ [.wait 260] ++
  transferActions (p.pick t .idle) ++ transferActions (p.pick t (.display 0)) ++ [.wait 260] ++
  transferActions (p.pick t .idle) ++ transferActions (p.pick t (.display 1)) ++ [.wait 260] ++
  transferActions (p.pick t .idle) ++ transferActions (p.pick t (.display 2)) ++ [.wait 260] ++
  transferActions (p.pick t .idle) ++ transferActions (p.pick t (.display 3)) ++ [.wait 260] ++
  transferActions (p.pick t .idle) ++ [.wait 260]

theorem passOps_eq : passOps = (transferOps .led ++ [.wait tSettle]) ++ (positionOps 0 ++ (positionOps 1 ++
    (positionOps 2 ++ (positionOps 3 ++ (transferOps .idle ++ [.wait tSettle]))))) := by
  simp [passOps, positions]

/-- A refresh pass (43_poll.md R183). -/
theorem performAll_pass (after : List SeqOp) (p : Sequencer) (s : State) :
    performAll after passOps (p, s) =
      (p.moved 986 (p.pick s.tables .idle) after, actAll (p.passActions s.tables) s) := by
  rw [passOps_eq, performAll_append, performAll_transfer_wait, performAll_append, performAll_position,
    performAll_append, performAll_position, performAll_append, performAll_position, performAll_append,
    performAll_position, performAll_transfer_wait]
  simp only [Sequencer.pick_moved, actAll_tables, Sequencer.moved_moved, ← actAll_append]
  simp only [Sequencer.passActions, tSettle, List.append_assoc, List.cons_append, List.nil_append, Nat.reduceAdd]

/-- The DIN level of a sample `k` panel actions from now, with no sample in between (60_exceptions.md R215). -/
def levelAfter (s : State) (k : Nat) : Bool :=
  match s.dinLevels with
  | v :: _ => v
  | [] => Config.freeDin (s.draws + k)

theorem dinLevel_actAll (l : List Action) (s : State) : dinLevel (actAll l s) = levelAfter s l.length := by
  have h := (actAll_keeps l s).2.2.2.2.2.2.2.2.2.2.2.2.2.1
  unfold dinLevel levelAfter
  cases h' : s.dinLevels <;> simp only [h, h', actAll_draws]

/-- The state with the buttons and the DIN levels to come replaced: all that a scan step changes besides its actions. -/
def withScan (buttons : Vector Bool 7) (levels : List Bool) (s : State) : State :=
  { s with button := buttons, dinLevels := levels }

theorem act_withScan (a : Action) (buttons : Vector Bool 7) (levels : List Bool) (s : State) :
    act a (withScan buttons levels s) = withScan buttons levels (act a s) := by
  rcases a with ⟨l, v⟩ | n | _ <;> first | rfl | (cases l <;> rfl)

theorem actAll_withScan (l : List Action) (buttons : Vector Bool 7) (levels : List Bool) (s : State) :
    actAll l (withScan buttons levels s) = withScan buttons levels (actAll l s) := by
  induction l generalizing s with
  | nil => rfl
  | cons a l ih => simp [act_withScan, ih]

/-- The scan of one button (43_poll.md R184, R185): its scan frame, the sample delay, the sample. -/
theorem performAll_scan (after : List SeqOp) (b : Fin 7) (p : Sequencer) (s : State) :
    performAll after (scanOps b) (p, s) =
      ({ p.moved 100 (scanFrame s.tables p.idle b) after with mask := markPressed b (!levelAfter s 99) p.mask },
        withScan (s.button.set b (!levelAfter s 99)) s.dinLevels.tail
          (actAll (transferActions (scanFrame s.tables p.idle b) ++ [.wait 5, .sample]) s)) := by
  have hsplit : scanOps b = (transferOps (.scan b) ++ [.wait tSample]) ++ [.sample b] := by simp [scanOps]
  have hlen : ∀ f : Frame, (transferActions f ++ [Action.wait tSample]).length = 99 := fun _ => rfl
  rw [hsplit, performAll_append, performAll_transfer_wait]
  simp only [performAll, perform]
  rw [dinLevel_actAll, hlen]
  have hpick : p.pick s.tables (.scan b) = scanFrame s.tables p.idle b := rfl
  rw [hpick]
  generalize scanFrame s.tables p.idle b = f
  generalize transferActions f = F
  have hact : act .sample (actAll (F ++ [.wait tSample]) s) = actAll (F ++ [.wait 5, .sample]) s := by
    simp [actAll, tSample]
  refine Prod.ext ?_ ?_
  · simp only [Sequencer.moved, Sequencer.update, Sequencer.advance, Nat.add_assoc]
    rfl
  · show store (.sample b) (levelAfter s 99) (act .sample (actAll (F ++ [.wait tSample]) s)) = _
    rw [hact]
    generalize F ++ [Action.wait 5, Action.sample] = l
    have h6 := (actAll_keeps l s).2.2.2.2.2.1
    have h14 := (actAll_keeps l s).2.2.2.2.2.2.2.2.2.2.2.2.2.1
    simp only [store, writeButton, withScan, h6, h14]

/-! ## To the response -/

/-- What a list of actions never changes. -/
theorem performAll_keeps (after ops : List SeqOp) (x : Sequencer × State) :
    (performAll after ops x).2.inputs = x.2.inputs ∧ (performAll after ops x).2.rspStatus = x.2.rspStatus := by
  induction ops generalizing x with
  | nil => exact ⟨rfl, rfl⟩
  | cons op ops ih =>
    have h := perform_keeps op (ops ++ after) x
    exact ⟨(ih _).1.trans h.2.2.2.2.2.2.2.2.2.2.1, (ih _).2.trans h.2.2.2.2.2.2.1⟩

theorem performAll_todo (after ops : List SeqOp) (x : Sequencer × State) (h : x.1.todo = ops ++ after) :
    (performAll after ops x).1.todo = after := by
  induction ops generalizing x with
  | nil => exact h
  | cons op ops ih => exact ih _ rfl

/-- All that is left of a POLL, and its response (43_poll.md R187). -/
theorem run_to_response (ops : List SeqOp) (op : SeqOp) (p : Sequencer) (s : State) (hin : QuietFor (ops.length + 1) s)
    (hst : s.rspStatus ≠ 7#3) (h : p.todo = ops ++ [op]) :
    Host.Core.run Sys2Proof.core (ops.length + 1) { s with poll := some p } =
      .next { finishPoll (performAll [] (ops ++ [op]) (p, s)).1 (performAll [] (ops ++ [op]) (p, s)).2 with
        inputs := s.inputs.drop (ops.length + 1) } := by
  have hsnoc : performAll [] (ops ++ [op]) (p, s) = perform op [] (performAll [op] ops (p, s)) := by
    rw [performAll_append]
    rfl
  have hall : ∀ e ∈ s.inputs.take (ops.length + 1), e = HostEvent.quiet := hin
  have hquiet : QuietFor ops.length s := fun e he =>
    hall e (List.take_subset_take_left s.inputs (Nat.le_succ _) he)
  have hlast : QuietFor 1 { s with inputs := s.inputs.drop ops.length } := fun e he =>
    hall e (by rw [List.take_add]; exact List.mem_append_right _ he)
  rw [run_add, run_performAll [op] (by simp) ops p s hquiet hst h, hsnoc]
  have hk := performAll_keeps [op] ops (p, s)
  have ht := performAll_todo [op] ops (p, s) h
  generalize performAll [op] ops (p, s) = x at hk ht ⊢
  obtain ⟨q, u⟩ := x
  have hq : step { u with poll := some q, inputs := s.inputs.drop ops.length } = _ :=
    step_quietFor (n := 0) (p := q) (by exact hlast) (fun e => hst (hk.2.symm.trans e)) rfl
  show Host.Core.run Sys2Proof.core (0 + 1) { u with poll := some q, inputs := s.inputs.drop ops.length } = _
  rw [run_succ hq, runSequencer_last ht]
  unfold taken
  rw [List.tail_drop, perform_inputs op [] q { u with poll := some q }, perform_poll]
  rfl

/-! ## The sequence -/

theorem bitOps_length (i : Nat) : (bitOps i).length = 6 := rfl

theorem transferOps_length (kind : FrameKind) : (transferOps kind).length = 98 := rfl

theorem passOps_length : passOps.length = 986 := by
  simp [passOps, positions, positionOps, transferOps_length]

theorem scanOps_length (b : Fin 7) : (scanOps b).length = 100 := by
  simp [scanOps, transferOps_length]

theorem pollProgram_length : pollProgram.length = 5630 := by
  simp [pollProgram, scanOrder, scanOps_length, passOps_length, nPasses, List.replicate]

/-- The sequence as its five passes and seven scan steps (43_poll.md R180). -/
theorem pollProgram_eq : pollProgram = passOps ++ (passOps ++ (passOps ++ (passOps ++ (passOps ++ (scanOps 1 ++
    (scanOps 3 ++ (scanOps 4 ++ (scanOps 5 ++ (scanOps 2 ++ (scanOps 0 ++ scanOps 6)))))))))) := by
  simp [pollProgram, nPasses, scanOrder, List.replicate]

/-- Every button is sampled (43_poll.md R185). -/
theorem sample_mem_pollProgram (b : Fin 7) : SeqOp.sample b ∈ pollProgram := by
  have hs : ∀ c : Fin 7, SeqOp.sample c ∈ scanOps c := fun c => by simp [scanOps]
  have hb : b ∈ scanOrder := by revert b; decide
  exact List.mem_append_right _ (List.mem_flatMap.mpr ⟨b, hb, hs b⟩)

/-- What CLK and WE_N are after a list does not depend on what they were where it drives them. -/
theorem endClk_append (c : Level) (l l' : List SeqOp) : endClk c (l ++ l') = endClk (endClk c l) l' := by
  induction l generalizing c with
  | nil => rfl
  | cons op l ih => cases op <;> exact ih _

@[inherit_doc endClk_append]
theorem endWeN_append (w : Level) (l l' : List SeqOp) : endWeN w (l ++ l') = endWeN (endWeN w l) l' := by
  induction l generalizing w with
  | nil => rfl
  | cons op l ih => cases op <;> exact ih _

/-- The lines a POLL ends with (43_poll.md R191). -/
theorem pollProgram_endClk (c : Level) : endClk c pollProgram = .high := by
  have h6 : ∀ d, endClk d (scanOps 6) = .high := fun _ => rfl
  rw [pollProgram_eq]
  simp only [endClk_append, h6]

@[inherit_doc pollProgram_endClk]
theorem pollProgram_endWeN (w : Level) : endWeN w pollProgram = .high := by
  have h6 : ∀ d, endWeN d (scanOps 6) = .high := fun _ => rfl
  rw [pollProgram_eq]
  simp only [endWeN_append, h6]

end Sys2Proof.Machine
end

