-- ==== Sys2Proof/Tests/Slice0.lean ====
section
/-! SUPPORT. The model's own tests: the well-formedness checks, the spec's words decoded, one step of each command, frames
under the test binding, and a witness for the hypotheses of every statement. Expected results are those of
95_test_vectors.md (T1 to T16, W1 to W9) and of the encoding examples of 30_encoding.md. -/

namespace Sys2Proof.Tests

open Sys2Proof.Machine Sys2Proof.Safety

/-! ## Well-formedness: an ill-formed term for each check -/

theorem test_wf_id : (Instr.setLed 8 true).wellFormed = false ∧ (Instr.getButton 7).wellFormed = true := by decide
theorem test_wf_value : (Instr.setDisplay 65536).wellFormed = false ∧ (Instr.setDisplay 65535).wellFormed = true := by decide
theorem test_wf_temp : (Instr.cToF 32768).wellFormed = false ∧ (Instr.fToC (-32769)).wellFormed = false ∧
    (Instr.cToF (-32768)).wellFormed = true := by decide

/-! ## Decoding: words written out from R70 and R76 (T2, T9, T10, T14) -/

theorem test_decode_init : decodeTableWord 32 0x00000001 = some .init := by decide
theorem test_decode_poll : decodeTableWord 32 0x00000002 = some .poll := by decide
theorem test_decode_set_led : decodeTableWord 32 0x00001510 = some (.setLed 5 true) := by decide
theorem test_decode_clear_led : decodeTableWord 32 0x00000111 = some (.clearLed 1) := by decide
theorem test_decode_toggle_led : decodeTableWord 32 0x00000312 = some (.toggleLed 3) := by decide
theorem test_decode_get_led : decodeTableWord 32 0x00000413 = some (.getLed 4) := by decide
theorem test_decode_set_display : decodeTableWord 32 0x03E80020 = some (.setDisplay 1000) := by decide
theorem test_decode_get_display : decodeTableWord 32 0x00000021 = some .getDisplay := by decide
theorem test_decode_enable_display : decodeTableWord 32 0x00001022 = some (.enableDisplay true) := by decide
theorem test_decode_is_display_enabled : decodeTableWord 32 0x00000023 = some .isDisplayEnabled := by decide
theorem test_decode_set_buzzer : decodeTableWord 32 0x00001030 = some (.setBuzzer true) := by decide
theorem test_decode_is_buzzing : decodeTableWord 32 0x00000031 = some .isBuzzing := by decide
theorem test_decode_set_celsius : decodeTableWord 32 0x00000040 = some (.setCelsius false) := by decide
theorem test_decode_is_celsius : decodeTableWord 32 0x00000041 = some .isCelsius := by decide
theorem test_decode_get_button : decodeTableWord 32 0x00000750 = some (.getButton 7) := by decide
theorem test_decode_c_to_f : decodeTableWord 32 0xFFD80060 = some (.cToF (-40)) := by decide
theorem test_decode_f_to_c : decodeTableWord 32 0x00D40061 = some (.fToC 212) := by decide

/-- The illegal words of T2, each with its reason. -/
theorem test_decode_illegal :
    [0x00000000#32, 0x00000100#32, 0x00000062#32, 0x000000FF#32].all
      (fun w => match decode w with | .error e => e == .unassignedOpcode | .ok _ => false) ∧
    [0x00000810#32, 0x00002010#32, 0x00008010#32, 0x00010010#32, 0x00001111#32, 0x00010021#32, 0x00001050#32,
      0x00001140#32].all
      (fun w => match decode w with | .error e => e == .unusedFieldSet | .ok _ => false) := by decide

theorem test_encode_words : encode (.setLed 4 true) = 0x00001410#32 ∧ encode (.setDisplay 307) = 0x01330020#32 ∧
    encode (.setCelsius true) = 0x00001040#32 ∧ encode (.getButton 6) = 0x00000650#32 ∧
    encode (.cToF (-40)) = 0xFFD80060#32 := by decide

/-- Assembler lines of 95_test_vectors.md with their words. -/
theorem test_assemble :
    (assemble "SET_LED" [.name "HeaterRed"]).map encode = some 0x00001410#32 ∧
    (assemble "TOGGLE_LED" [.name "Heater"]).map encode = some 0x00000312#32 ∧
    (assemble "SET_DISPLAY" [.hex 0xFFFF]).map encode = some 0xFFFF0020#32 ∧
    (assemble "GET_BUTTON" [.name "FahrenheitCelsius"]).map encode = some 0x00000650#32 ∧
    (assemble "C_TO_F" [.dec (-18)]).map encode = some 0xFFEE0060#32 ∧
    assemble "C_TO_F" [.dec 32768] = none := by decide

/-! ## Commands, one step each -/

/-- The response registers after a step. -/
def answer (o : Host.Outcome State Fault Refusal) : Option (BitVec 3 × Word) :=
  match o with
  | .next t => some (t.rspStatus, t.rspData)
  | .fault _ => none
  | .refused _ => none

/-- One register after a step. -/
def reading {α : Type} (f : State → α) (o : Host.Outcome State Fault Refusal) : Option α :=
  match o with
  | .next t => some (f t)
  | .fault _ => none
  | .refused _ => none

/-- The machine right after reset with one word presented. -/
def given (w : Nat) : State := State.reset.withFetchWord 32 w

/-- T3. -/
theorem test_init : reading (fun t => (t.clk, t.dout, t.weN, t.initialized, t.rspStatus)) (step (given 0x00000001)) =
    some (.high, .high, .high, true, 0#3) := by decide
theorem test_init_actions : reading (fun t => t.actions.reverse) (step (given 0x00000001)) =
    some [.setLine .clk true, .setLine .dout true, .setLine .weN true] := by decide
/-- T13, before INIT. -/
theorem test_poll_before_init : answer (step (given 0x00000002)) = some (4#3, 0#32) := by decide
/-- T9. -/
theorem test_set_led : reading (fun t => (t.led[4], t.led[3], t.rspStatus)) (step (given 0x00001410)) =
    some (true, false, 0#3) := by decide
theorem test_set_led_out_of_bounds : answer (step (given 0x00001510)) = some (2#3, 0#32) := by decide
theorem test_clear_led : reading (fun t => (t.led[1], t.led[0])) (exec (.clearLed 1)
    { State.reset with led := #v[true, true, false, false, false] }) = some (false, true) := by decide
theorem test_toggle_led : reading (fun t => (t.led[3], t.led[4])) (step (given 0x00000312)) =
    some (true, false) := by decide
theorem test_get_led : answer (exec (.getLed 2) { State.reset with led := #v[false, false, true, false, false] }) =
    some (0#3, 1#32) := by decide
/-- T10. -/
theorem test_set_display : reading (fun t => (t.display, t.rspStatus)) (step (given 0x03E70020)) =
    some (999#10, 0#3) := by decide
theorem test_set_display_rejected : reading (fun t => (t.display, t.rspStatus)) (step (given 0x03E80020)) =
    some (20#10, 1#3) := by decide
theorem test_get_display : answer (step (given 0x00000021)) = some (0#3, 20#32) := by decide
theorem test_enable_display : reading (fun t => (t.displayEn, t.display)) (step (given 0x00000022)) =
    some (false, 20#10) := by decide
theorem test_is_display_enabled : answer (step (given 0x00000023)) = some (0#3, 1#32) := by decide
theorem test_set_buzzer : reading (fun t => (t.buzzer, t.rspStatus)) (step (given 0x00001030)) =
    some (true, 0#3) := by decide
theorem test_is_buzzing : answer (step (given 0x00000031)) = some (0#3, 0#32) := by decide
/-- T11. -/
theorem test_set_celsius : reading (fun t => (t.display, t.celsius, t.rspStatus)) (step (given 0x00000040)) =
    some (68#10, false, 0#3) := by decide
theorem test_set_celsius_rejected : reading (fun t => (t.display, t.celsius, t.rspStatus))
    (exec (.setCelsius true) { State.reset with display := 31#10, celsius := false }) =
    some (31#10, false, 1#3) := by decide
theorem test_is_celsius : answer (step (given 0x00000041)) = some (0#3, 1#32) := by decide
theorem test_get_button : answer (exec (.getButton 3)
    { State.reset with button := #v[false, false, false, true, false, false, false] }) = some (0#3, 1#32) := by decide
theorem test_get_button_out_of_bounds : answer (step (given 0x00000750)) = some (2#3, 0#32) := by decide
/-- T14. -/
theorem test_c_to_f : answer (step (given 0x80000060)) = some (0#3, 0xFFFF19BA#32) := by decide
theorem test_c_to_f_rounds : answer (step (given 0x00250060)) = some (0#3, 99#32) := by decide
theorem test_f_to_c : answer (step (given 0x80000061)) = some (0#3, 0xFFFFB8D2#32) := by decide
theorem test_f_to_c_negative : answer (step (given 0x001F0061)) = some (0#3, 0xFFFFFFFF#32) := by decide
/-- T15: decode before NOT_INITIALIZED. -/
theorem test_illegal_before_own_check : answer (step (given 0x00010002)) = some (3#3, 0#32) := by decide

/-! ## Frames under FIXTURE_A (95_test_vectors.md section 1, a fictional binding for tests only) -/

/-- FIXTURE_A. -/
def fixtureA : Tables where
  bitBuzzer := 13
  bitLedActive := 12
  bitLed := #v[0, 1, 2, 3, 4]
  bitDigit := #v[8, 9, 10, 11]
  bitBtn := #v[0, 1, 2, 3, 4, 5, 6]
  segMask := #v[0x003F, 0x0006, 0x005B, 0x004F, 0x0066, 0x006D, 0x007D, 0x0007, 0x007F, 0x006F, 0x0039, 0x0071]

/-- T6. -/
theorem test_idle_frame : idleFrame fixtureA false = 0xFFFF#16 ∧ idleFrame fixtureA true = 0xDFFF#16 := by decide
theorem test_led_frame : ledFrame fixtureA false #v[true, false, false, false, false] = 0xEFFE#16 ∧
    ledFrame fixtureA true #v[true, true, true, true, true] = 0xCFE0#16 := by decide
/-- T7. -/
theorem test_display_frame : displayFrame fixtureA false 307 true true 0 = 0xFEB0#16 ∧
    displayFrame fixtureA false 68 true false 1 = 0xFD82#16 ∧ displayFrame fixtureA true 999 true true 2 = 0xDB90#16 ∧
    displayFrame fixtureA true 537 false true 0 = 0xDEFF#16 := by decide
theorem test_unit_indicator_frame : displayFrame fixtureA false 20 false true 3 = 0xF7C6#16 ∧
    displayFrame fixtureA false 0 true false 3 = 0xF78E#16 := by decide
/-- T8. -/
theorem test_scan_frame : scanFrame fixtureA 0xFFFF#16 6 = 0xFFBF#16 ∧ scanFrame fixtureA 0xDFFF#16 1 = 0xDFFD#16 := by
  decide
/-- T4, the first seven actions and the last. -/
theorem test_transfer_actions : (transferActions 0xFFFE#16).take 7 = [.setLine .weN false, .setLine .clk false, .wait 5,
    .setLine .dout false, .wait 2, .setLine .clk true, .wait 3] ∧
    (transferActions 0xFFFE#16)[97]? = some (.setLine .weN true) := by decide
/-- 40_transport.md R106: 16 rising and 16 falling edges in a transfer. -/
theorem test_transfer_edges : edgesPerTransfer true 0 0 (transferActions 0xA5C3#16) = [(16, 16)] := by decide
/-- T5. -/
theorem test_transfer_samples : sampledBits true true (transferActions 0xA5C3#16) =
    [true, true, false, false, false, false, true, true, true, false, true, false, false, true, false, true] := by decide

/-! ## States for the witnesses -/

/-- An SPC under FIXTURE_A after INIT, with a panel that will supply the samples of P3. -/
def ready : State :=
  { State.reset with
    tables := fixtureA
    initialized := true
    clk := .high
    dout := .high
    weN := .high
    dinLevels := [true, false, true, true, true, false, true] }

/-- The same with a POLL just accepted. -/
def running : State := { ready with poll := some (startSequencer ready) }

theorem ready_inv : Inv ready where
  display_le := by decide
  status_ne := by decide
  tables_wf := by decide
  din_input := rfl
  before_init := fun h => by simp [ready] at h
  after_init := fun _ => by decide
  idle_lines := fun _ _ => by decide
  running := fun p h => by simp [ready, State.reset] at h

theorem running_inv : Inv running where
  display_le := by decide
  status_ne := by decide
  tables_wf := by decide
  din_input := rfl
  before_init := fun h => by simp [running, ready] at h
  after_init := fun _ => by decide
  idle_lines := fun _ h => by simp [running] at h
  running := fun p h => by
    obtain rfl : startSequencer ready = p := by simpa [running] using h
    exact
      { initialized := rfl
        seq_lt := by decide
        todo_eq := rfl
        wait_eq := rfl
        idle_eq := rfl
        led_eq := rfl
        disp_eq := fun q => by
          have h : q = 0 ∨ q = 1 ∨ q = 2 ∨ q = 3 := by omega
          rcases h with rfl | rfl | rfl | rfl <;> rfl
        clk_end := pollProgram_endClk _
        weN_end := pollProgram_endWeN _ }

theorem running_mask : MaskTracks running := fun p h b => by
  obtain rfl : startSequencer ready = p := by simpa [running] using h
  exact ⟨fun _ => by simp [startSequencer], fun hb => absurd (sample_mem_pollProgram b) hb⟩

/-! ## The hypotheses of every statement are met -/

/-- DecodeOfEncodeIsTheCommand, at the ends of the operand ranges. -/
theorem witness_decode_of_encode : (Instr.setLed 7 true).wellFormed ∧ (Instr.setDisplay 65535).wellFormed ∧
    (Instr.cToF (-32768)).wellFormed ∧ (Instr.fToC 32767).wellFormed := by decide
/-- EncodeOfDecodeIsTheWord. -/
theorem witness_encode_of_decode : ∃ w i, decode w = .ok i := ⟨0x00000001#32, .init, by rfl⟩
/-- UnassignedOpcodeIsIllegal. -/
theorem witness_unassigned : (given 0x00000062).inputs = [.word 0x00000062#32] ∧ (given 0x00000062).poll = none ∧
    (given 0x00000062).rspStatus ≠ 7#3 ∧ (0x00000062#32).extractLsb' 0 8 ∉ assignedOpcodes := by
  refine ⟨rfl, rfl, ?_, ?_⟩ <;> decide
/-- UnusedFieldSetIsIllegal. -/
theorem witness_unused_field : (given 0x00010010).inputs = [.word 0x00010010#32] ∧ (given 0x00010010).poll = none ∧
    (given 0x00010010).rspStatus ≠ 7#3 ∧ (0xFFFFE8FF#32, 0x10#32) ∈ tableRows ∧
    (0x00010010#32).extractLsb' 0 8 = (0x10#32).extractLsb' 0 8 ∧ 0x00010010#32 &&& 0xFFFFE8FF#32 ≠ 0x10#32 := by
  refine ⟨rfl, rfl, ?_, ?_, ?_, ?_⟩ <;> decide
/-- AssembledCommandFitsItsFields, at the ends of the ranges. -/
theorem witness_assembled : assemble "GET_BUTTON" [.dec 7] = some (.getButton 7) ∧
    assemble "SET_DISPLAY" [.dec 65535] = some (.setDisplay 65535) ∧
    assemble "F_TO_C" [.hex 0x8000] = some (.fToC (-32768)) := by decide
/-- StepRunsTheDecodedCommand. -/
theorem witness_step_runs : (given 0x00000021).inputs = [.word 0x00000021#32] ∧ (given 0x00000021).poll = none ∧
    (given 0x00000021).rspStatus ≠ 7#3 ∧ decode 0x00000021#32 = .ok .getDisplay := by
  exact ⟨rfl, rfl, by decide, rfl⟩
/-- WordsWhileBusyAreAnsweredBusy (T15: an illegal word too). -/
theorem witness_words_while_busy : ∃ (s : State) (p : Sequencer), s.poll = some p ∧ s.rspStatus ≠ 7#3 ∧
    s.inputs = [0x00000021#32, 0x00000000#32].map HostEvent.word ++ [.quiet] :=
  ⟨{ running with inputs := [.word 0x00000021#32, .word 0x00000000#32, .quiet] }, startSequencer ready, rfl, by decide, rfl⟩
/-- IdleStepHoldsEverything, both clauses. -/
theorem witness_idle_step : ready.poll = none ∧ ready.rspStatus ≠ 7#3 ∧ ready.inputs = [] ∧
    { ready with inputs := [.quiet] }.inputs = [.quiet] := ⟨rfl, by decide, rfl, rfl⟩
/-- ResetAppliesTheResetValues: in the middle of a POLL, and a second state with the same draw counter. -/
theorem witness_reset : ({ running with inputs := [.reset] } : State).inputs = [.reset] ∧
    ({ ready with inputs := [.reset, .quiet] } : State).inputs = [.reset, .quiet] ∧
    ({ ready with inputs := [.reset, .quiet] } : State).draws = ({ running with inputs := [.reset] } : State).draws :=
  ⟨rfl, rfl, rfl⟩
/-- EveryStepAnswersAndKeepsTheInvariant: idle and running. -/
theorem witness_invariant : Inv ready ∧ Inv running := ⟨ready_inv, running_inv⟩
/-- EveryStepKeepsTheMaskOnTheButtons. -/
theorem witness_mask : Inv running ∧ MaskTracks running ∧ ∃ t, step running = .next t :=
  ⟨running_inv, running_mask, _, step_running rfl (by decide) rfl⟩
/-- TablesAreNeverWritten, OnlyInitAndResetChangeInitialized (by INIT). -/
theorem witness_init_step : ∃ t, step (given 0x00000001) = .next t ∧ t.initialized ≠ (given 0x00000001).initialized :=
  ⟨_, rfl, by decide⟩
/-- OnlyInitAndResetChangeInitialized (by reset). -/
theorem witness_reset_step : ∃ t, step { ready with inputs := [.reset] } = .next t ∧ t.initialized ≠ ready.initialized :=
  ⟨_, rfl, by decide⟩
/-- ButtonsAreHeldWithoutAScan: a POLL accepted, which does not write the buttons yet. -/
theorem witness_buttons_held : ∃ t, step { ready with inputs := [.word 0x00000002#32] } = .next t ∧ ready.poll = none ∧
    ∀ rest, ({ ready with inputs := [.word 0x00000002#32] } : State).inputs ≠ .reset :: rest :=
  ⟨_, rfl, rfl, fun rest => by simp⟩
/-- TheTwoModelFaults, both clauses, the second at the boundary. -/
theorem witness_faults : ∃ s u : State, s.inputs = [.word 0x00000021#32] ∧ s.rspStatus = 7#3 ∧ u.initialized = true ∧
    999 < u.display.toNat :=
  ⟨{ given 0x00000021 with rspStatus := 7#3 }, { ready with display := 1000#10 }, rfl, rfl, rfl, by decide⟩
/-- StateCommandsAnswerWithoutPanelAction, ReadsAreIdempotent. -/
theorem witness_command_kinds : stateCommand (.setLed 7 true) = true ∧ readsOnly (.getButton 6) = true ∧
    stateCommand (.cToF 0) = true ∧ readsOnly (.fToC 0) = true := by decide
/-- ErrorStatusChangesNothing. -/
theorem witness_error_status : ∃ t r, step (given 0x00001510) = .next t ∧
    t.responses = r :: (given 0x00001510).responses ∧ r.status ≠ 0#3 := ⟨_, ⟨2#3, 0#32⟩, rfl, rfl, by decide⟩
/-- CommandsWriteOnlyTheirRegisters. -/
theorem witness_commands_write : ∃ t, exec (.setCelsius false) State.reset = .next t := ⟨_, rfl⟩
/-- InitDrivesTheLinesHighOnce (first clause), PollBeforeInitIsRejected. -/
theorem witness_not_initialized : State.reset.initialized = false := rfl
/-- InitDrivesTheLinesHighOnce (second clause). -/
theorem witness_initialized : ready.initialized = true := rfl
/-- PollStartsWithTheSnapshot, at the largest value of `display`. -/
theorem witness_poll_starts : ∃ s : State, s.initialized = true ∧ s.display.toNat = 999 :=
  ⟨{ ready with display := 999#10 }, rfl, by decide⟩
/-- PollRunsToItsWholeEffect and the four statements with its hypotheses. -/
theorem witness_whole_poll : Inv ready ∧ ready.initialized = true ∧ ready.poll = none ∧ ready.inputs = [] :=
  ⟨ready_inv, rfl, rfl, rfl⟩
/-- A POLL about to do `ops`, the host listing `l`. -/
def doing (ops : List SeqOp) (l : List HostEvent) : State :=
  { ready with poll := some { startSequencer ready with todo := ops }, inputs := l }
/-- TransferPerformsItsActionList: the last transfer of a POLL, the host listing nothing. -/
theorem witness_transfer : ∃ (s : State) (p : Sequencer), QuietFor 98 s ∧ s.rspStatus ≠ 7#3 ∧ s.poll = some p ∧
    p.todo = transferOps (.scan 6) ++ [.wait tSample, .sample 6] ∧ [SeqOp.wait tSample, .sample 6] ≠ [] :=
  ⟨doing (scanOps 6) [], _, by simp [QuietFor, doing], by decide, rfl, rfl, by simp⟩
/-- TransferPerformsItsActionList: a transfer with quiet events listed for a part of it. -/
theorem witness_transfer_quiet : ∃ (s : State) (p : Sequencer), s.inputs = [.quiet, .quiet] ∧ QuietFor 98 s ∧
    s.rspStatus ≠ 7#3 ∧ s.poll = some p ∧ p.todo = transferOps .led ++ [.wait tSettle] ∧ [SeqOp.wait tSettle] ≠ [] :=
  ⟨doing (transferOps .led ++ [.wait tSettle]) [.quiet, .quiet], _, rfl, by simp [QuietFor, doing], by decide, rfl, rfl,
    by simp⟩
/-- SampleRecordsItsButton, SeqAdvancesByOneUntilTheResponse: the sample of Power, with the scan of F/C to follow, and a
quiet event listed before a word. -/
theorem witness_sample : ∃ (s : State) (p : Sequencer), s.inputs = [.quiet, .word 0x00000021#32] ∧ QuietFor 1 s ∧
    s.rspStatus ≠ 7#3 ∧ s.poll = some p ∧ p.todo = .sample 0 :: scanOps 6 ∧ scanOps 6 ≠ [] :=
  ⟨doing (.sample 0 :: scanOps 6) [.quiet, .word 0x00000021#32], _, rfl, by simp [QuietFor, doing], by decide, rfl, rfl,
    by simp [scanOps]⟩
/-- SampleRecordsItsButton, SeqAdvancesByOneUntilTheResponse: the sample of F/C, the last action of a POLL. -/
theorem witness_last_sample : ∃ (s : State) (p : Sequencer), s.inputs = [] ∧ QuietFor 1 s ∧ s.rspStatus ≠ 7#3 ∧
    s.poll = some p ∧ p.todo = [.sample 6] :=
  ⟨doing [.sample 6] [], _, rfl, by simp [QuietFor, doing], by decide, rfl, rfl⟩
/-- What a host may do while it waits: a word, `n` quiet events, a word. -/
def twoWords (n : Nat) : List HostEvent := .word 0x00000021#32 :: (List.replicate n .quiet ++ [.word 0x00000000#32])
theorem twoWords_no_reset (n : Nat) : HostEvent.reset ∉ twoWords n := by simp [twoWords, List.mem_replicate]
theorem twoWords_quiet (n : Nat) : (twoWords n).count .quiet = n := by
  simp [twoWords, List.count_append]
/-- WordsDuringAPollLeaveItsResult: a word right after the acceptance and one before the last action, for which nothing is
listed. -/
theorem witness_words_during_poll : ∃ (s : State) (es rest : List HostEvent) (k : Nat), Inv s ∧ s.initialized = true ∧
    s.poll = none ∧ s.inputs ++ List.replicate k .quiet = es ++ .quiet :: rest ∧ .reset ∉ es ∧ es.count .quiet = 5629 :=
  ⟨{ ready with inputs := twoWords 5629 }, twoWords 5629, [], 1,
    { ready_inv with running := fun _ h => (Option.some_ne_none _ h.symm).elim }, rfl, rfl, rfl, twoWords_no_reset _,
    twoWords_quiet _⟩
/-- The last action answers, with the mask bit of F/C set where DIN is 0 (43_poll.md R184, R186). -/
theorem test_last_action : answer (step { doing [.sample 6] [] with dinLevels := [false] }) = some (0#3, 0x40#32) := by decide
/-- The statements on an LED or a button identifier, both clauses, at the boundaries. -/
theorem witness_identifiers : ∃ led button noLed noButton : Nat, led ≤ 4 ∧ button ≤ 6 ∧ 4 < noLed ∧ noLed ≤ 5 ∧
    6 < noButton ∧ noButton ≤ 7 := ⟨4, 6, 5, 7, by decide⟩
/-- SetDisplayStoresOrRejects and GetDisplayReturnsWhatWasSet, at the boundary (GetDisplayReadsTheValue: `ready_inv`). -/
theorem witness_display_values : ∃ v w : Nat, v ≤ 999 ∧ 1000 ≤ w ∧ w = v + 1 := ⟨999, 1000, by decide⟩
/-- SetCelsiusRescalesTheDisplay: its three clauses, and both sides of both boundaries (T11). -/
theorem witness_set_celsius : (true = State.reset.celsius) ∧
    (false ≠ State.reset.celsius ∧ c2f 537 ≤ 999 ∧ 0 ≤ c2f 537 ∧ 999 < c2f 538) ∧
    (f2c 31 < 0 ∧ 0 ≤ f2c 32 ∧ f2c 32 ≤ 999) := by decide
/-- SetCelsiusSucceedsExactlyInRange, ConversionLaws and UnitRoundTripRestoresTheDisplay. -/
theorem witness_unit_states : State.reset.display.toNat ≤ 537 ∧ State.reset.celsius = true ∧
    ({ State.reset with celsius := false, display := 999#10 } : State).display.toNat ≤ 999 := by decide
/-- ConversionCommandsAnswerTheConversion, at the ends of the range. -/
theorem witness_temps : ∃ t u : Int, -32768 ≤ t ∧ t ≤ 32767 ∧ t = -32768 ∧ -32768 ≤ u ∧ u ≤ 32767 ∧ u = 32767 :=
  ⟨-32768, 32767, by decide⟩
/-- DisplayFrameBits and DigitsMakeUpTheValue, at the largest value. -/
theorem witness_digits : (999 : Nat) ≤ 999 ∧ digit 999 0 = 9 ∧ digit 307 0 = 3 ∧ digit 307 1 = 0 ∧ digit 307 2 = 7 := by
  decide

end Sys2Proof.Tests
end

section
/-! PROOFS. Encoding: the words that are no command. The spec's table, written out in `tableRows` and `assignedOpcodes`,
is the opcode map's, and a word that selects none of its rows is answered ILLEGAL_COMMAND. -/

namespace Sys2Proof

open Sys2Proof.Machine Sys2Proof.Safety

/-- The assigned opcodes are the opcodes of the opcode map (30_encoding.md R76). -/
theorem opcodeMap_ops : opcodeMap.map Row.op = assignedOpcodes := rfl

/-- The mask and the match value of a row (30_encoding.md R71), as the spec's table gives them. -/
def Row.maskMatch (r : Row) : Word × Word := (r.format.mask, r.op.setWidth 32)

/-- The table's masks and match values are those of the opcode map's rows. -/
theorem opcodeMap_maskMatch : opcodeMap.map Row.maskMatch = tableRows := by decide

/-- A row selects a word exactly where the word agrees with the row's match value on its mask (30_encoding.md R71). -/
theorem Row.selects_iff (r : Row) (w : Word) : r.selects w = true ↔ w &&& r.maskMatch.1 = r.maskMatch.2 := by
  simp [Row.selects, Row.maskMatch]

/-- The opcode byte of a row's match value is the row's opcode. -/
theorem Row.maskMatch_op (r : Row) : r.maskMatch.2.extractLsb' 0 8 = r.op := by
  apply BitVec.eq_of_toNat_eq
  simpa [Row.maskMatch] using r.op.isLt

/-- In a list with pairwise different opcodes, an opcode has one row. -/
theorem eq_of_op_eq {l : List Row} (hl : l.Pairwise (fun a b => a.op ≠ b.op)) {q r : Row} (hq : q ∈ l) (hr : r ∈ l)
    (h : q.op = r.op) : q = r := by
  induction hl with
  | nil => exact absurd hq List.not_mem_nil
  | cons hne _ ih =>
    rcases List.mem_cons.mp hq with rfl | hq'
    · rcases List.mem_cons.mp hr with rfl | hr'
      · rfl
      · exact absurd h (hne r hr')
    · rcases List.mem_cons.mp hr with rfl | hr'
      · exact absurd h.symm (hne q hq')
      · exact ih hq' hr'

/-- A word that selects a row has an assigned opcode. -/
theorem op_assigned_of_selects {r : Row} (hr : r ∈ opcodeMap) {w : Word} (hs : r.selects w = true) :
    w.extractLsb' 0 8 ∈ assignedOpcodes := by
  rw [← Row.op_of_selects hs, ← opcodeMap_ops]
  exact List.mem_map_of_mem hr

/-- A word with a row's opcode can select only that row. -/
theorem eq_of_selects_of_op {q r : Row} (hq : q ∈ opcodeMap) (hr : r ∈ opcodeMap) {w : Word}
    (hw : w.extractLsb' 0 8 = r.op) (hs : q.selects w = true) : q = r :=
  eq_of_op_eq opcodeMap_distinct hq hr ((Row.op_of_selects hs).trans hw)

/-- A word that selects no row is no command (30_encoding.md R72, R77). -/
theorem decode_of_selects_none {w : Word} (h : ∀ r ∈ opcodeMap, r.selects w ≠ true) :
    decode w = .error (decodeError w) := by
  rcases decode_cases w with ⟨r, hr, hs, -⟩ | ⟨-, hd⟩
  · exact absurd hs (h r hr)
  · exact hd

/-- An idle SPC answers a word that selects no row ILLEGAL_COMMAND with data 0, and nothing else changes
(60_exceptions.md R202, R203). -/
theorem step_of_selects_none {s : State} {w : Word} {rest : List HostEvent} (hi : s.inputs = .word w :: rest)
    (hp : s.poll = none) (hs : s.rspStatus ≠ 7#3) (h : ∀ r ∈ opcodeMap, r.selects w ≠ true) :
    step s = .next (answered 3#3 0#32 { s with inputs := rest }) :=
  step_word_illegal hi hs hp (decode_of_selects_none h)

/-- Settles O5: a row selects only words with its own opcode, so a word with an unassigned one selects none. -/
theorem unassignedOpcodeIsIllegal : Obligations.UnassignedOpcodeIsIllegal := by
  unfold Obligations.UnassignedOpcodeIsIllegal
  intro s w rest hi hp hs hop
  exact step_of_selects_none hi hp hs fun r hr hsel => hop (op_assigned_of_selects hr hsel)

/-- Settles O6: the word's opcode leaves it one row to select, and that row's fixed bits differ from the word's. -/
theorem unusedFieldSetIsIllegal : Obligations.UnusedFieldSetIsIllegal := by
  unfold Obligations.UnusedFieldSetIsIllegal
  intro s w rest m hi hp hs hm hop hne
  obtain ⟨r, hr, rfl⟩ := List.mem_map.mp (opcodeMap_maskMatch ▸ hm)
  refine step_of_selects_none hi hp hs fun q hq hsel => hne ?_
  obtain rfl := eq_of_selects_of_op hq hr (hop.trans r.maskMatch_op) hsel
  exact (q.selects_iff w).mp hsel

end Sys2Proof
end

section
/-! PROOFS. Transport: INIT, one TRANSFER of a running POLL, and what the lines show over the action list of a whole
POLL. -/

namespace Sys2Proof

open Sys2Proof.Machine Sys2Proof.Safety

/-! ## INIT -/

/-- INIT's three line actions leave every device-state register as it is (40_transport.md R100). -/
theorem initLines_sameDevice (s : State) : SameDevice s (initLines s) := by
  constructor <;> simp [initLines]

/-- INIT's three line actions leave these as they are too (40_transport.md R100). -/
theorem initLines_keeps (s : State) :
    (initLines s).responses = s.responses ∧ (initLines s).poll = s.poll ∧ (initLines s).tables = s.tables ∧
      (initLines s).inputs = s.inputs ∧ (initLines s).dinLevels = s.dinLevels := by
  simp [initLines]

/-- No panel action sets the time back (60_exceptions.md R209). -/
theorem time_le_initLines (s : State) : s.time ≤ (initLines s).time := by
  simp [initLines]
  omega

/-- A first INIT drives the lines, sets `initialized` and answers OK (40_transport.md R100). -/
theorem exec_init_first {s : State} (h : s.initialized = false) :
    exec .init s = .next (ret 0#32 { initLines s with initialized := true }) := by
  simp [exec, execInit, h]

/-- A second INIT answers ALREADY_INITIALIZED and changes nothing (70_reset_and_hazards.md R234). -/
theorem exec_init_again {s : State} (h : s.initialized = true) : exec .init s = .next (answered 5#3 0#32 s) := by
  simp [exec, execInit, h]
  rfl

/-- Settles O25: the first INIT is its three line actions and the response, the second the error response alone. -/
theorem initDrivesTheLinesHighOnce : Obligations.InitDrivesTheLinesHighOnce := by
  unfold Obligations.InitDrivesTheLinesHighOnce
  refine fun s => ⟨fun h => ⟨_, exec_init_first h, ?_⟩, exec_init_again⟩
  obtain ⟨hled, hdisplay, hdisplayEn, hbuzzer, hcelsius, hbutton⟩ := initLines_sameDevice s
  obtain ⟨hclk, hdout, hweN, hdin⟩ := initLines_lines s
  obtain ⟨hresponses, hpoll, htables, hinputs, hlevels⟩ := initLines_keeps s
  exact ⟨hclk, hdout, hweN, hdin, rfl, rfl, rfl, congrArg _ hresponses, rfl,
    ⟨hled, hdisplay, hdisplayEn, hbuzzer, hcelsius, hbutton⟩, hpoll, htables, hinputs, hlevels, time_le_initLines s⟩

/-! ## One TRANSFER of a running POLL -/

/-- TRANSFER(f) ends with CLK and WE_N high and DOUT at bit 15 (40_transport.md R101, R104). -/
theorem actAll_transfer_lines (f : Frame) (s : State) :
    (actAll (transferActions f) s).clk = .high ∧ (actAll (transferActions f) s).weN = .high ∧
      (actAll (transferActions f) s).dout = if f.getLsbD 15 then .high else .low :=
  ⟨rfl, rfl, rfl⟩

/-- The length of TRANSFER(f) (40_transport.md R101). -/
theorem transferActions_length (f : Frame) : (transferActions f).length = 98 := rfl

/-- A running POLL is the state with its sequencer put in again. -/
theorem with_running_poll {s : State} {p : Sequencer} (h : s.poll = some p) : { s with poll := some p } = s := by
  cases s
  simp_all

/-- A TRANSFER with more to follow is 98 steps in which nothing is presented. -/
theorem run_transfer {s : State} {p : Sequencer} {kind : FrameKind} {rest : List SeqOp} (hin : QuietFor 98 s)
    (hst : s.rspStatus ≠ 7#3) (hp : s.poll = some p) (htodo : p.todo = transferOps kind ++ rest) (hrest : rest ≠ []) :
    Host.Core.run Sys2Proof.core 98 s =
      .next { actAll (transferActions (p.pick s.tables kind)) s with
        poll := some (p.moved 98 (p.pick s.tables kind) rest)
        inputs := s.inputs.drop 98 } := by
  have h := run_performAll rest hrest (transferOps kind) p s hin hst htodo
  rwa [with_running_poll hp, performAll_transfer, transferOps_length] at h

/-- Settles O33: the 98 steps are the panel actions of TRANSFER, which write the lines and the histories only. -/
theorem transferPerformsItsActionList : Obligations.TransferPerformsItsActionList := by
  unfold Obligations.TransferPerformsItsActionList
  intro s p kind rest hin hst hp htodo hrest
  refine ⟨_, _, run_transfer hin hst hp htodo hrest, rfl, rfl, rfl, rfl, rfl, rfl, rfl, ?_⟩
  generalize p.pick s.tables kind = f
  dsimp only
  obtain ⟨hclk, hweN, hdout⟩ := actAll_transfer_lines f s
  obtain ⟨hled, hdisplay, hdisplayEn, hbuzzer, hcelsius, hbutton, hinit, -, hstatus, hdata, hdin, htables, -, hlevels,
    hresponses⟩ := actAll_keeps (transferActions f) s
  exact ⟨actAll_actions _ s, transferActions_length f, hclk, hweN, hdout,
    ⟨hled, hdisplay, hdisplayEn, hbuzzer, hcelsius, hbutton⟩, ⟨hstatus, hdata, hresponses⟩, hinit, htables, hlevels,
    hdin, rfl⟩

/-! ## The steps of a whole POLL -/

/-- POLL is accepted after INIT where `display` is legal (43_poll.md R180). -/
theorem exec_poll_accepted {s : State} (hinit : s.initialized = true) (hd : s.display.toNat ≤ 999) :
    exec .poll s = .next { s with poll := some (startSequencer s) } := by
  simp [exec, execPoll, hinit, displayMax, hd]

/-- A POLL just accepted is at its end after 5630 steps in which nothing is presented (43_poll.md R187, R188). -/
theorem run_poll {s : State} (hin : QuietFor 5630 s) (hst : s.rspStatus ≠ 7#3) :
    Host.Core.run Sys2Proof.core 5630 { s with poll := some (startSequencer s) } =
      .next { finishPoll (performAll [] pollProgram (startSequencer s, s)).1
          (performAll [] pollProgram (startSequencer s, s)).2 with
        inputs := s.inputs.drop 5630 } := by
  have hne : pollProgram ≠ [] := List.ne_nil_of_length_eq_add_one pollProgram_length
  obtain ⟨ops, op, hprogram⟩ : ∃ ops op, pollProgram = ops ++ [op] :=
    ⟨_, _, (List.dropLast_concat_getLast hne).symm⟩
  have hlen : ops.length + 1 = 5630 := by simpa [hprogram] using pollProgram_length
  rw [hprogram, ← hlen]
  exact run_to_response ops op (startSequencer s) s (hlen ▸ hin) hst hprogram

/-! ## The actions of a whole POLL -/

/-- The sequencer chooses, for every transfer, the frame that a POLL started in `s` sends (43_poll.md R182). -/
def SendsFramesOf (s : State) (x : Sequencer × State) : Prop :=
  x.1.pick x.2.tables = (startSequencer s).pick s.tables

/-- The snapshot holds for the whole POLL (43_poll.md R182). -/
theorem SendsFramesOf.after_performAll {s : State} {x : Sequencer × State} (h : SendsFramesOf s x)
    (after ops : List SeqOp) : SendsFramesOf s (performAll after ops x) := by
  induction ops generalizing x with
  | nil => exact h
  | cons op ops ih =>
    refine ih (Eq.trans ?_ h)
    have htables : (perform op (ops ++ after) x).2.tables = x.2.tables := by
      cases op <;> rfl
    funext kind
    cases kind <;> simp [Sequencer.pick, htables]

/-- In a POLL started in `s`, the operations `ops` perform the panel actions `l`. -/
def Performs (s : State) (ops : List SeqOp) (l : List Action) : Prop :=
  ∀ (after : List SeqOp) (x : Sequencer × State), SendsFramesOf s x →
    (performAll after ops x).2.actions = l.reverse ++ x.2.actions

/-- What two lists of operations perform, one after the other. -/
theorem Performs.append {s : State} {ops ops' : List SeqOp} {l l' : List Action} (h : Performs s ops l)
    (h' : Performs s ops' l') : Performs s (ops ++ ops') (l ++ l') := by
  intro after x hx
  rw [performAll_append, h' after _ (hx.after_performAll _ ops), h _ x hx]
  simp

/-- A refresh pass (43_poll.md R183). -/
theorem performs_pass (s : State) : Performs s passOps (passActions s) := by
  rintro after ⟨p, u⟩ hx
  have hpick : p.pick u.tables = (startSequencer s).pick s.tables := hx
  have hpass : p.passActions u.tables = passActions s := by
    rw [Sequencer.passActions, hpick]
    rfl
  simp only [performAll_pass, hpass, actAll_actions]

/-- The scan of a button (43_poll.md R184). -/
theorem performs_scan (s : State) (b : Fin 7) : Performs s (scanOps b) (scanActions s b) := by
  rintro after ⟨p, u⟩ hx
  have hscan : scanFrame u.tables p.idle b = scanFrame s.tables s.idleNow b := congrFun hx (.scan b)
  simp only [performAll_scan, hscan, withScan, actAll_actions, scanActions]

/-- The whole POLL (43_poll.md R180): five passes, then the seven buttons in scan order. -/
theorem performs_pollProgram (s : State) : Performs s pollProgram (pollActions s) := by
  have hpass := performs_pass s
  have hscan := performs_scan s
  have h := hpass.append (hpass.append (hpass.append (hpass.append (hpass.append ((hscan 1).append ((hscan 3).append
    ((hscan 4).append ((hscan 5).append ((hscan 2).append ((hscan 0).append (hscan 6)))))))))))
  rw [pollProgram_eq]
  simpa only [pollActions, List.append_assoc] using h

/-- From a state of the invariant, after INIT and with no POLL running, a POLL left alone is accepted and performs its
action list in its 5630 steps (43_poll.md R180, R188). -/
theorem poll_performs_its_actions {s : State} (hinv : Inv s) (hinit : s.initialized = true) (hin : s.inputs = []) :
    ∃ t u, exec .poll s = .next t ∧ Host.Core.run Sys2Proof.core 5630 t = .next u ∧
      u.actions = (pollActions s).reverse ++ s.actions := by
  refine ⟨_, _, exec_poll_accepted hinit hinv.display_le, run_poll (quietFor_nil hin) hinv.status_ne, ?_⟩
  have h := performs_pollProgram s [] (startSequencer s, s) rfl
  generalize performAll [] pollProgram (startSequencer s, s) = x at h ⊢
  simpa only [finishPoll, ret_actions] using h

/-! ## An action list that sends frames -/

/-- The actions send these frames in order, each by one TRANSFER, with nothing but waits and samples around them. -/
inductive Sends : List Frame → List Action → Prop
  | nil : Sends [] []
  | transfer (f : Frame) {fs : List Frame} {l : List Action} : Sends fs l → Sends (f :: fs) (transferActions f ++ l)
  | wait (n : Nat) {fs : List Frame} {l : List Action} : Sends fs l → Sends fs (.wait n :: l)
  | sample {fs : List Frame} {l : List Action} : Sends fs l → Sends fs (.sample :: l)

/-- What two lists of actions send, one after the other. -/
theorem Sends.append {fs fs' : List Frame} {l l' : List Action} (h : Sends fs l) (h' : Sends fs' l') :
    Sends (fs ++ fs') (l ++ l') := by
  induction h with
  | nil => exact h'
  | transfer f _ ih => simpa using ih.transfer f
  | wait n _ ih => exact ih.wait n
  | sample _ ih => exact ih.sample

/-- The frames of a refresh pass of a POLL started in this state, in order (43_poll.md R183). -/
def passFrames (s : State) : List Frame :=
  [s.ledNow, s.idleNow, s.displayNow 0, s.idleNow, s.displayNow 1, s.idleNow, s.displayNow 2, s.idleNow,
    s.displayNow 3, s.idleNow]

/-- A refresh pass sends its ten frames (43_poll.md R183). -/
theorem sends_pass (s : State) : Sends (passFrames s) (passActions s) := by
  have hposition {fs l} (q : Fin 4) (h : Sends fs l) : Sends (s.idleNow :: s.displayNow q :: fs)
      (transferActions s.idleNow ++ (transferActions (s.displayNow q) ++ .wait 260 :: l)) :=
    ((h.wait 260).transfer _).transfer _
  have h := ((hposition 0 (hposition 1 (hposition 2 (hposition 3 ((Sends.nil.wait 260).transfer
    s.idleNow))))).wait 260).transfer s.ledNow
  simpa only [passFrames, passActions, List.append_assoc, List.cons_append, List.nil_append] using h

/-- A scan step sends its scan frame (43_poll.md R184). -/
theorem sends_scan (s : State) (b : Fin 7) : Sends [scanFrame s.tables s.idleNow b] (scanActions s b) :=
  (Sends.nil.sample.wait 5).transfer _

/-- The frames of a POLL as those of its five passes and its seven scan steps (43_poll.md R183, R184). -/
theorem pollFrames_eq (s : State) : pollFrames s = passFrames s ++ passFrames s ++ passFrames s ++ passFrames s ++
    passFrames s ++ scanOrder.flatMap (fun b => [scanFrame s.tables s.idleNow b]) := rfl

/-- A POLL sends its frames (43_poll.md R183, R184, R189). -/
theorem sends_poll (s : State) : Sends (pollFrames s) (pollActions s) := by
  have hpass := sends_pass s
  have hscan := sends_scan s
  have h := hpass.append (hpass.append (hpass.append (hpass.append (hpass.append ((hscan 1).append ((hscan 3).append
    ((hscan 4).append ((hscan 5).append ((hscan 2).append ((hscan 0).append (hscan 6)))))))))))
  simpa only [pollFrames_eq, scanOrder, List.flatMap_cons, List.flatMap_nil, List.append_nil, pollActions,
    List.append_assoc] using h

/-- A POLL sends 57 frames (43_poll.md R189). -/
theorem pollFrames_length (s : State) : (pollFrames s).length = 57 := rfl

/-- A frame has 16 bits (30_encoding.md R83). -/
theorem frameBits_length (f : Frame) : (frameBits f).length = 16 := rfl

/-! ## What the panel samples -/

/-- Each bit driven is sampled once, at its rising edge of CLK (40_transport.md R102). -/
theorem sampledBits_bits (bits : List Bool) (d : Bool) (rest : List Action) :
    sampledBits true d (bits.flatMap bitActions ++ rest) = bits ++ sampledBits true (bits.getLastD d) rest := by
  induction bits generalizing d with
  | nil => rfl
  | cons v bits ih => simp [bitActions, sampledBits, ih, List.getLast?_cons]

/-- The panel samples the frames sent, each from bit 0 on (40_transport.md R102). -/
theorem Sends.sampledBits_eq {fs : List Frame} {l : List Action} (h : Sends fs l) (d : Bool) :
    sampledBits true d l = fs.flatMap frameBits := by
  induction h generalizing d with
  | nil => rfl
  | transfer f _ ih => simp [transferActions, sampledBits, sampledBits_bits, ih]
  | wait n _ ih => exact ih d
  | sample _ ih => exact ih d

/-- Settles O30: the POLL's actions send its frames, and the panel samples the frames that are sent. -/
theorem panelSamplesTheFramesLsbFirst : Obligations.PanelSamplesTheFramesLsbFirst := by
  unfold Obligations.PanelSamplesTheFramesLsbFirst
  intro s hinv hinit _ hin
  obtain ⟨t, u, hexec, hrun, hactions⟩ := poll_performs_its_actions hinv hinit hin
  exact ⟨t, u, pollActions s, hexec, hrun, hactions, (sends_poll s).sampledBits_eq, pollFrames_length s⟩

/-! ## The edges of CLK -/

/-- Each bit makes two CLK edges, which count where WE_N is at the level asked for (40_transport.md R101). -/
theorem clockEdges_bits (want weN : Bool) (bits : List Bool) (rest : List Action) :
    clockEdges want true weN (bits.flatMap bitActions ++ rest) =
      (if weN == want then 2 * bits.length else 0) + clockEdges want true weN rest := by
  induction bits with
  | nil => simp
  | cons v bits ih =>
    simp only [List.flatMap_cons, bitActions, List.cons_append, List.nil_append, clockEdges, ih, List.length_cons]
    cases weN == want
    · simp
    · simp
      omega

/-- Each bit makes a falling and a rising CLK edge of the transfer it is in (40_transport.md R101). -/
theorem edgesPerTransfer_bits (rise fall : Nat) (bits : List Bool) (rest : List Action) :
    edgesPerTransfer true rise fall (bits.flatMap bitActions ++ rest) =
      edgesPerTransfer true (rise + bits.length) (fall + bits.length) rest := by
  induction bits generalizing rise fall with
  | nil => rfl
  | cons v bits ih => simp [bitActions, edgesPerTransfer, ih, Nat.add_assoc, Nat.add_comm 1]

/-- No CLK edge comes while WE_N is high (40_transport.md R106). -/
theorem Sends.clockEdges_high {fs : List Frame} {l : List Action} (h : Sends fs l) :
    clockEdges true true true l = 0 := by
  induction h with
  | nil => rfl
  | transfer f _ ih => simp [transferActions, clockEdges, clockEdges_bits, ih]
  | wait n _ ih => exact ih
  | sample _ ih => exact ih

/-- 32 CLK edges come in each transfer while WE_N is low (40_transport.md R106). -/
theorem Sends.clockEdges_low {fs : List Frame} {l : List Action} (h : Sends fs l) :
    clockEdges false true true l = 32 * fs.length := by
  induction h with
  | nil => rfl
  | transfer f _ ih =>
    simp [transferActions, clockEdges, clockEdges_bits, frameBits_length, ih]
    omega
  | wait n _ ih => exact ih
  | sample _ ih => exact ih

/-- 16 rising and 16 falling CLK edges come in each transfer (40_transport.md R106). -/
theorem Sends.edgesPerTransfer_eq {fs : List Frame} {l : List Action} (h : Sends fs l) :
    edgesPerTransfer true 0 0 l = List.replicate fs.length (16, 16) := by
  induction h with
  | nil => rfl
  | transfer f _ ih =>
    simp [transferActions, edgesPerTransfer, edgesPerTransfer_bits, frameBits_length, ih, List.replicate_succ]
  | wait n _ ih => exact ih
  | sample _ ih => exact ih

/-- Settles O31: the POLL's actions send its 57 frames, and CLK has edges only inside their transfers. -/
theorem clockMovesOnlyInsideATransfer : Obligations.ClockMovesOnlyInsideATransfer := by
  unfold Obligations.ClockMovesOnlyInsideATransfer
  intro s hinv hinit _ hin
  obtain ⟨t, u, hexec, hrun, hactions⟩ := poll_performs_its_actions hinv hinit hin
  have hsends := sends_poll s
  exact ⟨t, u, pollActions s, hexec, hrun, hactions, hsends.clockEdges_high, hsends.clockEdges_low,
    hsends.edgesPerTransfer_eq⟩

end Sys2Proof
end

section
/-! PROOFS. The frame builder: which bits `clr` and `clrm` clear, and from these which bits are 0 in each frame
(41_frame_builder.md R120 to R129). -/

namespace Sys2Proof

open Sys2Proof.Machine

/-! ## Clearing bits -/

/-- Bits 0 after `clr f j`: those of `f`, and bit `j` (00_scope.md R13). -/
theorem clr_bit_false (f : Frame) (j k : Fin 16) :
    (clr f j).getLsbD k.val = false ↔ f.getLsbD k.val = false ∨ k = j := by
  have hone : (1#16 <<< j.val).getLsbD k.val = decide (k = j) := by
    rw [← BitVec.twoPow_eq, BitVec.getLsbD_twoPow]
    simp only [j.isLt, decide_true, Bool.true_and, Fin.ext_iff, @eq_comm _ j.val]
  simp only [clr, BitVec.getLsbD_and, BitVec.getLsbD_not, hone, k.isLt, decide_true, Bool.true_and,
    Bool.and_eq_false_iff, Bool.not_eq_false', decide_eq_true_eq]

/-- Bits 0 after `clrm f m`: those of `f`, and those of the mask (00_scope.md R13). -/
theorem clrm_bit_false (f m : Frame) (k : Fin 16) :
    (clrm f m).getLsbD k.val = false ↔ f.getLsbD k.val = false ∨ m.getLsbD k.val = true := by
  simp only [clrm, BitVec.getLsbD_and, BitVec.getLsbD_not, k.isLt, decide_true, Bool.true_and,
    Bool.and_eq_false_iff, Bool.not_eq_false']

/-! ## The idle frame, a scan frame and the LED frame -/

/-- The bit that is 0 in IDLE: the buzzer's, where the buzzer sounds (41_frame_builder.md R120). -/
theorem idleFrame_bit_false (t : Tables) (bz : Bool) (k : Fin 16) :
    (idleFrame t bz).getLsbD k.val = false ↔ bz = true ∧ k = t.bitBuzzer := by
  have hones : (0xFFFF#16).getLsbD k.val = true := by
    rw [show 0xFFFF#16 = BitVec.allOnes 16 from rfl, BitVec.getLsbD_allOnes, decide_eq_true k.isLt]
  cases bz with
  | false => simp only [idleFrame, Bool.false_eq_true, if_false, hones, Bool.true_eq_false, false_and]
  | true => simp only [idleFrame, if_true, clr_bit_false, hones, Bool.true_eq_false, false_or, true_and]

/-- Settles O54: SCAN_FRAME is one `clr` on IDLE. -/
theorem idleAndScanFrameBits : Obligations.IdleAndScanFrameBits := by
  intro t bz b k
  have hidle := idleFrame_bit_false t bz k
  exact ⟨hidle, (clr_bit_false _ _ k).trans (or_congr_left hidle)⟩

/-- Bits 0 after clearing the bits of the LEDs of a list that are on (the loop of 41_frame_builder.md R121). -/
theorem foldl_clr_led_bit_false (t : Tables) (led : Vector Bool 5) (ls : List (Fin 5)) (f : Frame) (k : Fin 16) :
    (ls.foldl (fun f l => if led[l] then clr f t.bitLed[l] else f) f).getLsbD k.val = false ↔
      f.getLsbD k.val = false ∨ ∃ l ∈ ls, led[l] = true ∧ k = t.bitLed[l] := by
  induction ls generalizing f with
  | nil => simp only [List.foldl_nil, List.not_mem_nil, false_and, exists_false, or_false]
  | cons l ls ih =>
    have hhead : (if led[l] then clr f t.bitLed[l] else f).getLsbD k.val = false ↔
        f.getLsbD k.val = false ∨ led[l] = true ∧ k = t.bitLed[l] := by
      cases led[l] with
      | false => simp only [Bool.false_eq_true, if_false, false_and, or_false]
      | true => simp only [if_true, clr_bit_false, true_and]
    rw [List.foldl_cons, ih, hhead]
    simp only [List.mem_cons, or_and_right, exists_or, exists_eq_left, or_assoc]

/-- `ledIds` lists every LED (00_scope.md R16). -/
theorem mem_ledIds (l : Fin 5) : l ∈ ledIds := by
  revert l
  decide

/-- Settles O55, by the loop over the five LEDs. -/
theorem ledFrameBits : Obligations.LedFrameBits := by
  intro t bz led k
  rw [ledFrame, clr_bit_false, foldl_clr_led_bit_false, idleFrame_bit_false, or_assoc]
  simp only [mem_ledIds, true_and]

/-! ## The digits and the display frames -/

/-- DIGITS at a digit position, as one formula (41_frame_builder.md R122). -/
theorem digit_castSucc {v : Nat} (hv : v ≤ 999) (p : Fin 3) : digit v p.castSucc = v / 10 ^ (2 - p.val) % 10 := by
  match p with
  | 0 => exact (Nat.mod_eq_of_lt (by omega : v / 100 < 10)).symm
  | 1 => rfl
  | 2 => exact (congrArg (· % 10) (Nat.div_one v)).symm

/-- DIGITS yields 0..9 (41_frame_builder.md R122). -/
theorem digit_castSucc_le {v : Nat} (hv : v ≤ 999) (p : Fin 3) : digit v p.castSucc ≤ 9 := by
  rw [digit_castSucc hv]
  omega

/-- Settles O57. -/
theorem digitsMakeUpTheValue : Obligations.DigitsMakeUpTheValue := by
  intro v hv
  refine ⟨digit_castSucc_le hv 0, digit_castSucc_le hv 1, digit_castSucc_le hv 2, ?_⟩
  simp only [digit]
  omega

/-- The mask of a decimal digit is the table's entry at the digit (41_frame_builder.md R123). -/
theorem seg_digit_bit (t : Tables) {d : Nat} (hd : d ≤ 9) (k : Nat) :
    (seg t (.digit d)).getLsbD k = true ↔ ∃ e : Fin 12, e.val = d ∧ t.segMask[e].getLsbD k = true := by
  have hindex : (Glyph.digit d).index.val = d := Nat.mod_eq_of_lt (by omega)
  constructor
  · exact fun h => ⟨_, hindex, h⟩
  · rintro ⟨e, he, h⟩
    obtain rfl : (Glyph.digit d).index = e := Fin.ext (hindex.trans he.symm)
    exact h

/-- At a digit position the segments of the digit are cleared where the display is enabled (41_frame_builder.md R124,
R128). -/
theorem glyphFrame_digit_bit_false (t : Tables) (bz en cel : Bool) (v : Nat) (p : Fin 3) (k : Fin 16) :
    (glyphFrame t bz v en cel p.castSucc).getLsbD k.val = false ↔
      (bz = true ∧ k = t.bitBuzzer) ∨
        (en = true ∧ (seg t (.digit (digit v p.castSucc))).getLsbD k.val = true) := by
  have hp : p.castSucc ≠ (3 : Fin 4) := Fin.ne_of_lt (Fin.castSucc_lt_last p)
  cases en with
  | false =>
    simp only [glyphFrame, if_neg hp, Bool.false_eq_true, if_false, idleFrame_bit_false, false_and, or_false]
  | true => simp only [glyphFrame, if_neg hp, if_true, clrm_bit_false, idleFrame_bit_false, true_and]

/-- At the unit indicator the Celsius or the Fahrenheit glyph is cleared, the display enabled or not
(41_frame_builder.md R129). -/
theorem glyphFrame_unit_bit_false (t : Tables) (bz en cel : Bool) (v : Nat) (k : Fin 16) :
    (glyphFrame t bz v en cel 3).getLsbD k.val = false ↔
      (bz = true ∧ k = t.bitBuzzer) ∨ (if cel then t.segMask[10] else t.segMask[11]).getLsbD k.val = true := by
  have hseg : seg t (if cel then .cel else .fah) = if cel then t.segMask[10] else t.segMask[11] := by
    cases cel <;> rfl
  rw [glyphFrame, if_pos rfl, clrm_bit_false, idleFrame_bit_false, hseg]

/-- Settles O56: the digit-select bit is cleared beside the bits of the position's glyph. -/
theorem displayFrameBits : Obligations.DisplayFrameBits := by
  intro t bz en cel v k
  constructor
  · intro p hv
    rw [displayFrame, clr_bit_false, glyphFrame_digit_bit_false, seg_digit_bit t (digit_castSucc_le hv p),
      digit_castSucc hv, or_right_comm, or_assoc]
  · rw [displayFrame, clr_bit_false, glyphFrame_unit_bit_false, or_right_comm, or_assoc]
    exact Iff.rfl

end Sys2Proof
end

section
/-! PROOFS. The commands of 42_state_commands.md: what each of them answers and writes, and from that what they have in
common (R140). -/

namespace Sys2Proof

open Sys2Proof.Machine Sys2Proof.Safety

/-! ## The data of a response -/

/-- `zext_32` of a boolean is 1 or 0 (00_scope.md R12). -/
theorem boolData_eq_ite (b : Bool) : boolData b = if b then 1#32 else 0#32 := by
  cases b <;> rfl

/-- `zext_32(display)` is the number `display` holds (30_encoding.md R78). -/
theorem displayData_eq_ofNat (d : BitVec 10) : displayData d = BitVec.ofNat 32 d.toNat := by
  apply BitVec.eq_of_toNat_eq
  rw [displayData, BitVec.toNat_setWidth, BitVec.toNat_ofNat]

/-- `return` of a boolean is the response (OK, 1) or (OK, 0). -/
theorem ret_boolData (b : Bool) (s : State) : ret (boolData b) s = answered 0#3 (if b then 1#32 else 0#32) s := by
  rw [boolData_eq_ite]
  rfl

/-! ## LEDs and buttons -/

/-- Settles O37: SET_LED runs on the LED of a legal identifier, and on no other (`onLed`). -/
theorem setLedWritesItsFlag : Obligations.SetLedWritesItsFlag := fun s _ _ =>
  ⟨fun h => congrArg _ (onLed_of_le h _ s), fun h => congrArg _ (onLed_of_gt h _ s)⟩

/-- Settles O38, by the two cases of `onLed`. -/
theorem clearLedClearsItsFlag : Obligations.ClearLedClearsItsFlag := fun s _ =>
  ⟨fun h => congrArg _ (onLed_of_le h _ s), fun h => congrArg _ (onLed_of_gt h _ s)⟩

/-- Settles O39, by the two cases of `onLed`. -/
theorem toggleLedInvertsItsFlag : Obligations.ToggleLedInvertsItsFlag := fun s _ =>
  ⟨fun h => congrArg _ (onLed_of_le h _ s), fun h => congrArg _ (onLed_of_gt h _ s)⟩

/-- Settles O40, by the two cases of `onLed`. -/
theorem getLedReadsItsFlag : Obligations.GetLedReadsItsFlag := fun s _ =>
  ⟨fun h => congrArg _ ((onLed_of_le h _ s).trans (ret_boolData _ s)), fun h => congrArg _ (onLed_of_gt h _ s)⟩

/-- Settles O47: a button has an identifier up to 6. -/
theorem getButtonReadsTheStoredButton : Obligations.GetButtonReadsTheStoredButton := by
  intro s id
  constructor
  · intro h
    simp only [exec, execGetButton, buttonOperand_of_le h]
    exact congrArg _ (ret_boolData _ s)
  · intro h
    simp only [exec, execGetButton, buttonOperand_of_gt h]
    rfl

/-! ## Display, buzzer, unit flag -/

/-- Settles O42, by the two branches of the range check. -/
theorem setDisplayStoresOrRejects : Obligations.SetDisplayStoresOrRejects := fun _ _ =>
  ⟨fun h => congrArg _ (if_neg (Nat.not_lt.mpr h)), fun h => congrArg _ (if_pos h)⟩

/-- Settles O44: the invariant bounds `display`, and a number up to 999 fits 32 bits. -/
theorem getDisplayReadsTheValue : Obligations.GetDisplayReadsTheValue := by
  intro s
  constructor
  · rw [← displayData_eq_ofNat]
    rfl
  · intro hinv
    have hle := hinv.display_le
    exact ⟨(BitVec.toNat_ofNat _ _).trans (Nat.mod_eq_of_lt (by omega)), hle⟩

/-- Settles O45: neither command has a check to pass. -/
theorem flagWritesAreTheirOperand : Obligations.FlagWritesAreTheirOperand := fun _ _ => ⟨rfl, rfl⟩

/-- Settles O46: each command is a `return` of its flag. -/
theorem flagReadsAreTheirFlag : Obligations.FlagReadsAreTheirFlag := fun s =>
  ⟨congrArg _ (ret_boolData _ s), congrArg _ (ret_boolData _ s), congrArg _ (ret_boolData _ s)⟩

/-- Settles O48: the three cases are the three branches of the command. -/
theorem setCelsiusRescalesTheDisplay : Obligations.SetCelsiusRescalesTheDisplay := by
  intro s b v
  refine ⟨fun hsame => congrArg _ (if_pos hsame), fun hne hout => congrArg _ ((if_neg hne).trans (if_pos hout)),
    fun hne h0 h999 => ?_⟩
  have hin : ¬ (v < 0 ∨ 999 < v) := by omega
  exact congrArg _ ((if_neg hne).trans (if_neg hin))

/-! ## The conversions -/

/-- `rha n d` is within 1/2 of n/d (00_scope.md R15). -/
theorem rha_nearest (n : Int) {d : Int} (hd : 0 < d) :
    -d ≤ 2 * (d * rha n d - n) ∧ 2 * (d * rha n d - n) ≤ d := by
  have hfloor (m : Int) : 2 * (d * ((2 * m + d) / (2 * d))) ≤ 2 * m + d ∧
      2 * m - d < 2 * (d * ((2 * m + d) / (2 * d))) := by
    have hdiv := Int.mul_ediv_add_emod (2 * m + d) (2 * d)
    have hnonneg := Int.emod_nonneg (2 * m + d) (show 2 * d ≠ 0 by omega)
    have hlt := Int.emod_lt_of_pos (2 * m + d) (show 0 < 2 * d by omega)
    rw [Int.mul_assoc] at hdiv
    omega
  unfold rha
  split
  · obtain ⟨hle, hge⟩ := hfloor n
    omega
  · obtain ⟨hle, hge⟩ := hfloor (-n)
    rw [Int.mul_neg]
    omega

/-- C2F of a 16-bit temperature (42_state_commands.md R151). -/
theorem c2f_range {t : Int} (hlo : -32768 ≤ t) (hhi : t ≤ 32767) : -58950 ≤ c2f t ∧ c2f t ≤ 59013 := by
  obtain ⟨hge, hle⟩ := rha_nearest (9 * t + 160) (show (0 : Int) < 5 by omega)
  unfold c2f
  omega

/-- F2C of a 16-bit temperature (42_state_commands.md R152). -/
theorem f2c_range {t : Int} (hlo : -32768 ≤ t) (hhi : t ≤ 32767) : -18222 ≤ f2c t ∧ f2c t ≤ 18186 := by
  obtain ⟨hge, hle⟩ := rha_nearest (5 * (t - 32)) (show (0 : Int) < 9 by omega)
  unfold f2c
  omega

/-- Settles O51: the results' ranges lie well inside 32-bit two's complement. -/
theorem conversionCommandsAnswerTheConversion : Obligations.ConversionCommandsAnswerTheConversion := by
  intro s t hlo hhi
  obtain ⟨hc, hc'⟩ := c2f_range hlo hhi
  obtain ⟨hf, hf'⟩ := f2c_range hlo hhi
  exact ⟨rfl, rfl, BitVec.toInt_ofInt_eq_self (by omega) (by omega) (by omega),
    BitVec.toInt_ofInt_eq_self (by omega) (by omega) (by omega)⟩

/-! ## What the commands have in common -/

/-- `s` with the device-state registers a command of 42_state_commands.md can write taken from `r`: all but `button`
(10_state.md R28). -/
def withDevice (r s : State) : State :=
  { s with led := r.led, display := r.display, displayEn := r.displayEn, buzzer := r.buzzer, celsius := r.celsius }

/-- How command `i` can end in `s`, `initialized` or not: it raises INVALID_ARGUMENT or OUT_OF_BOUNDS, or it writes
device-state registers and returns (42_state_commands.md R140). -/
inductive EndsAtOnce (i : Instr) (s : State) : Prop where
  | raises (status : BitVec 3) (own : status = 1#3 ∨ status = 2#3)
    (h : ∀ b : Bool, exec i { s with initialized := b } = .next (answered status 0#32 { s with initialized := b }))
  | returns (data : Word) (r : State)
    (h : ∀ b : Bool,
      exec i { s with initialized := b } = .next (answered 0#3 data (withDevice r { s with initialized := b })))

/-- A command that runs on one LED ends at once where its work on the LED does. -/
theorem endsAtOnce_of_onLed {i : Instr} {id : Nat} {k : Fin 5 → State → State} {s : State}
    (hi : ∀ s, exec i s = .next (onLed id k s))
    (hk : ∀ l, ∃ data r, ∀ b : Bool,
      k l { s with initialized := b } = ret data (withDevice r { s with initialized := b })) : EndsAtOnce i s := by
  rcases Nat.lt_or_ge 4 id with hgt | hle
  · exact .raises 2#3 (.inr rfl) fun b => (hi _).trans (congrArg _ (onLed_of_gt hgt k _))
  · obtain ⟨data, r, h⟩ := hk ⟨id, by omega⟩
    exact .returns data r fun b => (hi _).trans (congrArg _ ((onLed_of_le hle k _).trans (h b)))

/-- GET_BUTTON ends at once. -/
theorem getButton_endsAtOnce (id : Nat) (s : State) : EndsAtOnce (.getButton id) s := by
  rcases Nat.lt_or_ge 6 id with hgt | hle
  · exact .raises 2#3 (.inr rfl) fun b => (getButtonReadsTheStoredButton _ id).2 hgt
  · exact .returns (if s.button[id] then 1#32 else 0#32) s fun b => (getButtonReadsTheStoredButton _ id).1 hle

/-- SET_DISPLAY ends at once. -/
theorem setDisplay_endsAtOnce (v : Nat) (s : State) : EndsAtOnce (.setDisplay v) s := by
  rcases Nat.lt_or_ge 999 v with hgt | hle
  · exact .raises 1#3 (.inl rfl) fun b => (setDisplayStoresOrRejects _ v).2 hgt
  · exact .returns 0#32 { s with display := BitVec.ofNat 10 v } fun b => (setDisplayStoresOrRejects _ v).1 hle

/-- SET_CELSIUS ends at once: neither its conversion nor its checks read `initialized`. -/
theorem setCelsius_endsAtOnce (c : Bool) (s : State) : EndsAtOnce (.setCelsius c) s := by
  have hcases (b : Bool) := setCelsiusRescalesTheDisplay { s with initialized := b } c
  by_cases hsame : c = s.celsius
  · exact .returns 0#32 s fun b =>
      have ⟨hnoEffect, _, _⟩ := hcases b
      hnoEffect hsame
  by_cases hout : rescaled c s < 0 ∨ 999 < rescaled c s
  · exact .raises 1#3 (.inl rfl) fun b =>
      have ⟨_, hrejected, _⟩ := hcases b
      hrejected hsame hout
  · have hlo : 0 ≤ rescaled c s := by omega
    have hhi : rescaled c s ≤ 999 := by omega
    exact .returns 0#32 { s with display := BitVec.ofNat 10 (rescaled c s).toNat, celsius := c } fun b =>
      have ⟨_, _, hstored⟩ := hcases b
      hstored hsame hlo hhi

/-- Every command of 42_state_commands.md ends at once. -/
theorem stateCommand_endsAtOnce {i : Instr} (hi : stateCommand i = true) (s : State) : EndsAtOnce i s := by
  cases i with
  | init | poll => exact absurd hi Bool.false_ne_true
  | setLed id c =>
    exact endsAtOnce_of_onLed (fun _ => rfl) fun l => ⟨0#32, { s with led := s.led.set l c }, fun _ => rfl⟩
  | clearLed id =>
    exact endsAtOnce_of_onLed (fun _ => rfl) fun l => ⟨0#32, { s with led := s.led.set l false }, fun _ => rfl⟩
  | toggleLed id =>
    exact endsAtOnce_of_onLed (fun _ => rfl) fun l =>
      ⟨0#32, { s with led := s.led.set l (!s.led[l]) }, fun _ => rfl⟩
  | getLed id => exact endsAtOnce_of_onLed (fun _ => rfl) fun l => ⟨boolData s.led[l], s, fun _ => rfl⟩
  | setDisplay v => exact setDisplay_endsAtOnce v s
  | getDisplay => exact .returns (displayData s.display) s fun _ => rfl
  | enableDisplay c => exact .returns 0#32 { s with displayEn := c } fun _ => rfl
  | isDisplayEnabled => exact .returns (boolData s.displayEn) s fun _ => rfl
  | setBuzzer c => exact .returns 0#32 { s with buzzer := c } fun _ => rfl
  | isBuzzing => exact .returns (boolData s.buzzer) s fun _ => rfl
  | setCelsius c => exact setCelsius_endsAtOnce c s
  | isCelsius => exact .returns (boolData s.celsius) s fun _ => rfl
  | getButton id => exact getButton_endsAtOnce id s
  | cToF t => exact .returns (tempData (c2f t)) s fun _ => rfl
  | fToC t => exact .returns (tempData (f2c t)) s fun _ => rfl

/-- Writing device state and responding touch no part of the panel port. -/
theorem answered_withDevice_samePanel (status : BitVec 3) (data : Word) (r s : State) :
    SamePanel s (answered status data (withDevice r s)) := by
  constructor <;> rfl

/-- Settles O21: either end of a command leaves the panel port, the sequencer, the tables and the events alone. -/
theorem stateCommandsAnswerWithoutPanelAction : Obligations.StateCommandsAnswerWithoutPanelAction := by
  intro i s hi
  cases stateCommand_endsAtOnce hi s with
  | raises status own h =>
    exact ⟨answered status 0#32 s, h s.initialized, answered_withDevice_samePanel status 0#32 s s, rfl, rfl, rfl, rfl,
      rfl, .inr own, h, fun _ => rfl⟩
  | returns data r h =>
    exact ⟨answered 0#3 data (withDevice r s), h s.initialized, answered_withDevice_samePanel 0#3 data r s, rfl, rfl,
      rfl, rfl, rfl, .inl rfl, h, fun hne => absurd rfl hne⟩

end Sys2Proof
end

section
/-! PROOFS. POLL as a whole: what it has done after so many passes and samples, and from that its response and its
effect (43_poll.md R180 to R191). -/

namespace Sys2Proof

open Sys2Proof.Machine Sys2Proof.Safety

/-! ## Before INIT -/

/-- Settles O26: POLL asks for `initialized` first, and its refusal is the error response alone. -/
theorem pollBeforeInitIsRejected : Obligations.PollBeforeInitIsRejected := by
  intro s h
  simp only [exec, execPoll, h, Bool.false_eq_true, if_false]
  rfl

/-! ## The mask -/

/-- Every bit of the mask once a button is recorded (43_poll.md R186). -/
theorem markPressed_bit (b c : Fin 7) (pressed : Bool) (mask : BitVec 7) :
    (markPressed b pressed mask).getLsbD c.val = (mask.getLsbD c.val || (pressed && decide (c = b))) := by
  cases pressed with
  | false => simp [markPressed]
  | true =>
    have hbit : (1#7 <<< b.val).getLsbD c.val = decide (c = b) := by
      revert b c
      decide
    simp only [markPressed, if_true, BitVec.getLsbD_or, hbit, Bool.true_and]

/-- The mask holds no bit of the buttons `left`, which are still to be sampled, and each other bit is its button
(43_poll.md R185, R186). -/
def MarksButtons (left : List (Fin 7)) (mask : BitVec 7) (buttons : Vector Bool 7) : Prop :=
  ∀ c : Fin 7, mask.getLsbD c.val = (decide (c ∉ left) && buttons[c])

/-- A POLL starts with no bit of the mask set and every button to be sampled. -/
theorem marksButtons_zero (buttons : Vector Bool 7) : MarksButtons scanOrder 0#7 buttons := by
  intro c
  have hc : c ∈ scanOrder := by revert c; decide
  simp [hc]

/-- A sample records its button in the mask and in its register alike. -/
theorem MarksButtons.sample {b : Fin 7} {left : List (Fin 7)} {mask : BitVec 7} {buttons : Vector Bool 7}
    (h : MarksButtons (b :: left) mask buttons) (hb : b ∉ left) (pressed : Bool) :
    MarksButtons left (markPressed b pressed mask) (buttons.set b pressed) := by
  intro c
  rw [markPressed_bit, h c]
  by_cases hc : c = b
  · subst hc
    simp [hb]
  · have hval : b.val ≠ c.val := fun e => hc (Fin.ext e.symm)
    simp [hc, hval]

/-- The lowest bit of a binary number is its lowest digit. -/
theorem testBit_lowest_digit (b : Bool) (n : Nat) : (b.toNat + 2 * n).testBit 0 = b := by
  cases b <;> simp

/-- The bits of a binary number above its lowest digit are those of the number without it. -/
theorem testBit_higher_digits (b : Bool) (n i : Nat) : (b.toNat + 2 * n).testBit (i + 1) = n.testBit i := by
  have hhalf : (b.toNat + 2 * n) / 2 = n := by
    have := b.toNat_le
    omega
  rw [Nat.testBit_succ, hhalf]

/-- The mask of a POLL as a binary number, button 0 its lowest digit (43_poll.md R186). -/
theorem buttonMask_eq_digits (v : Vector Bool 7) : buttonMask v = BitVec.ofNat 32 (v[0].toNat + 2 * (v[1].toNat +
    2 * (v[2].toNat + 2 * (v[3].toNat + 2 * (v[4].toNat + 2 * (v[5].toNat + 2 * (v[6].toNat + 2 * 0))))))) := by
  rw [buttonMask]
  congr 1
  omega

/-- Bit b of the mask of a POLL is button b (43_poll.md R186). -/
theorem buttonMask_bit (v : Vector Bool 7) (b : Fin 7) : (buttonMask v).getLsbD b.val = v[b] := by
  obtain ⟨i, hi⟩ := b
  rw [buttonMask_eq_digits, BitVec.getLsbD_ofNat, decide_eq_true (show i < 32 by omega), Bool.true_and]
  match i with
  | 0 => exact testBit_lowest_digit _ _
  | 1 | 2 | 3 | 4 | 5 | 6 => simp only [testBit_higher_digits, testBit_lowest_digit, Fin.getElem_fin]

/-- The mask of a POLL has no bit above the seven buttons (43_poll.md R186). -/
theorem buttonMask_bit_high (v : Vector Bool 7) {k : Nat} (hk : 7 ≤ k) : (buttonMask v).getLsbD k = false := by
  obtain ⟨j, rfl⟩ : ∃ j, k = j + 7 := ⟨k - 7, by omega⟩
  rw [buttonMask_eq_digits, BitVec.getLsbD_ofNat]
  simp only [testBit_higher_digits, Nat.zero_testBit, Bool.and_false]

/-- With no button left to be sampled, the data of the response is the mask of the buttons (43_poll.md R186). -/
theorem MarksButtons.maskData_eq {mask : BitVec 7} {buttons : Vector Bool 7} (h : MarksButtons [] mask buttons) :
    maskData mask = buttonMask buttons := by
  apply BitVec.eq_of_getLsbD_eq
  intro k hk
  rw [maskData, BitVec.getLsbD_setWidth]
  by_cases hk7 : k < 7
  · have hbit : mask.getLsbD k = buttons[k] := by simpa using h ⟨k, hk7⟩
    rw [hbit, show (buttonMask buttons).getLsbD k = buttons[k] from buttonMask_bit buttons ⟨k, hk7⟩]
    simp [hk]
  · simp [buttonMask_bit_high buttons (show 7 ≤ k by omega), BitVec.getLsbD_of_ge mask k (by omega)]

/-! ## The actions of a whole POLL -/

/-- A refresh pass is 986 actions (43_poll.md R188). -/
theorem passActions_length (s : State) : (passActions s).length = 986 := by
  simp only [passActions, List.length_append, transferActions_length, List.length_cons, List.length_nil]

/-- A scan step is 100 actions (43_poll.md R188). -/
theorem scanActions_length (s : State) (b : Fin 7) : (scanActions s b).length = 100 := by
  simp only [scanActions, List.length_append, transferActions_length, List.length_cons, List.length_nil]

/-- A POLL is 5630 actions (43_poll.md R188). -/
theorem pollActions_length (s : State) : (pollActions s).length = 5630 := by
  simp only [pollActions, List.length_append, passActions_length, scanActions_length]

/-- A POLL's actions as those of its five passes and its seven scan steps (43_poll.md R180). -/
theorem pollActions_eq (s : State) :
    pollActions s = (List.replicate nPasses (passActions s)).flatten ++ scanOrder.flatMap (scanActions s) := by
  simp [pollActions, nPasses, scanOrder, List.replicate]

/-- The refresh passes of a POLL are 4930 actions (43_poll.md R188). -/
theorem passes_length (s : State) : (List.replicate nPasses (passActions s)).flatten.length = 4930 := by
  simp [passActions_length, nPasses]

/-- A TRANSFER takes 160 nominal time units (43_poll.md R190). -/
theorem nominalSum_transferActions (f : Frame) : nominalSum (transferActions f) = 160 := by
  simp [transferActions, frameBits, bitActions, nominalSum, List.range_succ]

/-- A POLL takes 16955 nominal time units (43_poll.md R190). -/
theorem nominalSum_pollActions (s : State) : nominalSum (pollActions s) = 16955 := by
  have hwait (n : Nat) : nominalSum [.wait n] = n := rfl
  have hsample : nominalSum [.wait 5, .sample] = 5 := rfl
  simp only [pollActions, passActions, scanActions, nominalSum_append, nominalSum_transferActions, hwait, hsample]

/-- Panel actions change the lines, the time, the draw counter and the history, and nothing else (00_scope.md R14). -/
theorem actAll_eq (l : List Action) (s : State) :
    actAll l s = { s with
      clk := (actAll l s).clk
      dout := (actAll l s).dout
      weN := (actAll l s).weN
      time := s.time + nominalSum l + extraTime s.draws l.length
      draws := s.draws + l.length
      actions := l.reverse ++ s.actions } := by
  have hkeeps := actAll_keeps l s
  rw [← actAll_time, ← actAll_draws, ← actAll_actions]
  generalize actAll l s = u at hkeeps ⊢
  cases u
  simp_all

/-- A scan step ends with CLK and WE_N high and DOUT at bit 15 of its scan frame (40_transport.md R104). -/
theorem actAll_scanActions_lines (s : State) (b : Fin 7) (u : State) :
    (actAll (scanActions s b) u).clk = .high ∧ (actAll (scanActions s b) u).weN = .high ∧
      (actAll (scanActions s b) u).dout = if (scanFrame s.tables s.idleNow b).getLsbD 15 then .high else .low := by
  simp only [scanActions, actAll_append, actAll_cons, actAll_nil, actSample_clk, actSample_weN, actSample_dout,
    actWait_clk, actWait_weN, actWait_dout]
  exact actAll_transfer_lines _ u

/-- A POLL ends with the lines as the scan of F/C leaves them (43_poll.md R191). -/
theorem actAll_pollActions_lines (s : State) :
    (actAll (pollActions s) s).clk = .high ∧ (actAll (pollActions s) s).weN = .high ∧
      (actAll (pollActions s) s).dout = if (scanFrame s.tables s.idleNow 6).getLsbD 15 then .high else .low := by
  rw [pollActions, actAll_append]
  exact actAll_scanActions_lines s 6 _

/-! ## How far a POLL has come -/

/-- A POLL started in `s` has performed the actions `l`, taken `k` samples, and holds these buttons, with the buttons
`left` still to be sampled. -/
structure Reached (s : State) (l : List Action) (k : Nat) (left : List (Fin 7)) (buttons : Vector Bool 7)
    (x : Sequencer × State) : Prop where
  frames : SendsFramesOf s x
  marks : MarksButtons left x.1.mask buttons
  state : x.2 = withScan buttons (s.dinLevels.drop k) (actAll l s)

section Progress

variable {s : State} {l : List Action} {k : Nat} {left : List (Fin 7)} {buttons : Vector Bool 7}
  {x : Sequencer × State}

/-- A POLL just accepted has done nothing. -/
theorem reached_start (s : State) : Reached s [] 0 scanOrder s.button (startSequencer s, s) where
  frames := rfl
  marks := marksButtons_zero s.button
  state := rfl

/-- A refresh pass performs its actions and takes no sample (43_poll.md R183). -/
theorem Reached.pass (h : Reached s l k left buttons x) (after : List SeqOp) :
    Reached s (l ++ passActions s) k left buttons (performAll after passOps x) := by
  obtain ⟨p, u⟩ := x
  obtain ⟨hframes, hmarks, hstate⟩ := h
  have hu : u = withScan buttons (s.dinLevels.drop k) (actAll l s) := hstate
  have hpick : p.pick u.tables = (startSequencer s).pick s.tables := hframes
  have hpass : p.passActions u.tables = passActions s := by
    rw [Sequencer.passActions, hpick]
    rfl
  refine ⟨hframes.after_performAll after passOps, ?_, ?_⟩
  · rw [performAll_pass]
    exact hmarks
  · rw [performAll_pass, hpass, hu, actAll_withScan, actAll_append]

/-- The refresh passes of a POLL (43_poll.md R183). -/
theorem Reached.passes (n : Nat) (h : Reached s l k left buttons x) (after : List SeqOp) :
    Reached s (l ++ (List.replicate n (passActions s)).flatten) k left buttons
      (performAll after (List.replicate n passOps).flatten x) := by
  induction n generalizing l x with
  | zero => simpa [performAll] using h
  | succ n ih =>
    rw [List.replicate_succ, List.flatten_cons, ← List.append_assoc, List.replicate_succ, List.flatten_cons,
      performAll_append]
    exact ih (h.pass _)

/-- The level at the sample of a scan step is the POLL's `k`-th (43_poll.md R188; 60_exceptions.md R215). -/
theorem levelAfter_eq_pollSample (hl : l.length = 4930 + 100 * k) :
    levelAfter (withScan buttons (s.dinLevels.drop k) (actAll l s)) 99 = pollSample s k := by
  have hdraws : (actAll l s).draws + 99 = s.draws + (5029 + 100 * k) := by
    rw [actAll_draws, hl]
    omega
  have hhead : s.dinLevels[k]? = (s.dinLevels.drop k).head? := by simp
  simp only [levelAfter, withScan, pollSample, hhead, hdraws]
  cases s.dinLevels.drop k <;> rfl

/-- A scan step performs its actions and writes its button from the next sample (43_poll.md R184, R185). -/
theorem Reached.scan {b : Fin 7} (h : Reached s l k (b :: left) buttons x) (hl : l.length = 4930 + 100 * k)
    (hb : b ∉ left) (after : List SeqOp) :
    Reached s (l ++ scanActions s b) (k + 1) left (buttons.set b (!pollSample s k))
      (performAll after (scanOps b) x) := by
  obtain ⟨p, u⟩ := x
  obtain ⟨hframes, hmarks, hstate⟩ := h
  have hu : u = withScan buttons (s.dinLevels.drop k) (actAll l s) := hstate
  have hscan : scanFrame u.tables p.idle b = scanFrame s.tables s.idleNow b := congrFun hframes (.scan b)
  have hlevel : levelAfter u 99 = pollSample s k := by
    rw [hu, levelAfter_eq_pollSample hl]
  refine ⟨hframes.after_performAll after (scanOps b), ?_, ?_⟩
  · rw [performAll_scan, hlevel]
    exact hmarks.sample hb _
  · rw [performAll_scan, hlevel, hscan, ← scanActions, hu, actAll_withScan, ← actAll_append, ← List.tail_drop]
    rfl

/-- The buttons after the scan of a list of them, the first by the sample `k` of the POLL (43_poll.md R184, R185). -/
def scannedButtons (s : State) : Nat → List (Fin 7) → Vector Bool 7 → Vector Bool 7
  | _, [], buttons => buttons
  | k, b :: bs, buttons => scannedButtons s (k + 1) bs (buttons.set b (!pollSample s k))

/-- The scan writes all seven buttons (43_poll.md R184, R185). -/
theorem scannedButtons_scanOrder (s : State) (buttons : Vector Bool 7) :
    scannedButtons s 0 scanOrder buttons = pollButtons s := by
  apply Vector.ext
  intro i hi
  simp only [scanOrder, scannedButtons, pollButtons, Vector.getElem_set]
  match i with
  | 0 | 1 | 2 | 3 | 4 | 5 | 6 => rfl

/-- The scan of a list of buttons, each of them once (43_poll.md R184). -/
theorem Reached.scans (h : Reached s l k left buttons x) (hl : l.length = 4930 + 100 * k) (hleft : left.Nodup)
    (after : List SeqOp) :
    Reached s (l ++ left.flatMap (scanActions s)) (k + left.length) [] (scannedButtons s k left buttons)
      (performAll after (left.flatMap scanOps) x) := by
  induction left generalizing l k buttons x with
  | nil => simpa [performAll, scannedButtons] using h
  | cons b bs ih =>
    obtain ⟨hb, hbs⟩ := List.nodup_cons.mp hleft
    have hl' : (l ++ scanActions s b).length = 4930 + 100 * (k + 1) := by
      rw [List.length_append, hl, scanActions_length]
      omega
    have hrest := ih (h.scan hl hb (bs.flatMap scanOps ++ after)) hl' hbs
    rw [List.flatMap_cons, ← List.append_assoc, List.flatMap_cons, performAll_append, List.length_cons,
      Nat.add_comm bs.length, ← Nat.add_assoc]
    exact hrest

end Progress

/-- A whole POLL has performed its action list and holds the seven buttons it sampled. -/
theorem reached_end (s : State) :
    Reached s (pollActions s) 7 [] (pollButtons s) (performAll [] pollProgram (startSequencer s, s)) := by
  have hpasses := (reached_start s).passes nPasses (scanOrder.flatMap scanOps ++ [])
  rw [List.nil_append] at hpasses
  have h := hpasses.scans (passes_length s) (by decide) []
  rw [scannedButtons_scanOrder] at h
  rw [pollActions_eq, pollProgram, performAll_append]
  exact h

/-! ## The effect -/

/-- The response to a POLL that has performed its whole sequence makes its effect (43_poll.md R186, R187). -/
theorem finishPoll_pollProgram (s : State) :
    finishPoll (performAll [] pollProgram (startSequencer s, s)).1
      (performAll [] pollProgram (startSequencer s, s)).2 = pollEffect s := by
  obtain ⟨-, hmarks, hstate⟩ := reached_end s
  obtain ⟨hclk, hweN, hdout⟩ := actAll_pollActions_lines s
  have hactions := actAll_eq (pollActions s) s
  rw [hclk, hweN, hdout, nominalSum_pollActions, pollActions_length] at hactions
  rw [finishPoll, hmarks.maskData_eq, hstate, hactions]
  rfl

/-- Settles O28: the 5630 steps perform the POLL's sequence, and the response to it makes its effect. -/
theorem pollRunsToItsWholeEffect : Obligations.PollRunsToItsWholeEffect := by
  intro s hinv hinit _ hin
  refine ⟨_, exec_poll_accepted hinit hinv.display_le, ?_⟩
  have hinputs : s.inputs.drop 5630 = (pollEffect s).inputs := by
    rw [hin, List.drop_nil]
    exact hin.symm
  rw [run_poll (quietFor_nil hin) hinv.status_ne, finishPoll_pollProgram, hinputs]

/-- Settles O32: the POLL's response and its buttons are those of its effect. -/
theorem pollMaskIsTheButtons : Obligations.PollMaskIsTheButtons := by
  intro s hinv hinit hpoll hin
  obtain ⟨t, hexec, hrun⟩ := pollRunsToItsWholeEffect s hinv hinit hpoll hin
  exact ⟨t, pollEffect s, hexec, hrun, rfl, rfl, buttonMask_bit (pollButtons s),
    fun _ => buttonMask_bit_high (pollButtons s)⟩

end Sys2Proof
end

section
/-! PROOFS. Exceptions (60_exceptions.md): an idle SPC with nothing presented (R211), the responses with a status other
than OK (R203), and words presented while a POLL runs (R217). -/

namespace Sys2Proof

open Sys2Proof.Machine Sys2Proof.Safety

/-! ## One step, by its host event -/

/-- A step in which nothing is presented, listed or not (60_exceptions.md R211; 43_poll.md R180). -/
theorem step_of_quiet {s : State} (he : event s = .quiet) (hs : s.rspStatus ≠ 7#3) : step s = quietStep (taken s) := by
  simp [step_eq, he, onEvent, guarded, taken, hs]

/-- With no event listed there is none to take. -/
theorem taken_of_nil {s : State} (h : s.inputs = []) : taken s = s := by
  cases s
  simp_all [taken]

/-- Settles O11: a quiet step of an idle SPC only takes its event. -/
theorem idleStepHoldsEverything : Obligations.IdleStepHoldsEverything := by
  intro s hpoll hs
  have hidle (he : event s = .quiet) : step s = .next (taken s) := by
    simp [step_of_quiet he hs, quietStep, taken, hpoll]
  constructor
  · intro hin
    rw [hidle (by simp [event, hin]), taken_of_nil hin]
  · intro rest hin
    rw [hidle (by simp [event, hin]), taken, hin, List.tail_cons]

/-! ## A status other than OK -/

/-- If going from `s` to `t` gives one response and its status is not OK, then that response with data 0 is all that
`t` has beside `s` (60_exceptions.md R203). -/
def ErrorAnswersOnly (s t : State) : Prop :=
  ∀ r : Response, t.responses = r :: s.responses → r.status ≠ 0#3 → t = answered r.status 0#32 s

/-- Where no response is given there is none with an error status. -/
theorem errorAnswersOnly_of_no_response {s t : State} (h : t.responses = s.responses) : ErrorAnswersOnly s t :=
  fun _ hr _ => absurd (hr.symm.trans h) (List.cons_ne_self _ _)

/-- A response with status OK is none with an error status. -/
theorem errorAnswersOnly_of_ok {s t : State} {data : Word} (h : t.responses = ⟨0#3, data⟩ :: s.responses) :
    ErrorAnswersOnly s t := by
  intro r hr hne
  obtain ⟨rfl, -⟩ := List.cons.inj (hr.symm.trans h)
  exact absurd rfl hne

/-- An error response with data 0 and nothing else. -/
theorem errorAnswersOnly_answered (status : BitVec 3) (s : State) : ErrorAnswersOnly s (answered status 0#32 s) := by
  intro r hr _
  obtain ⟨rfl, -⟩ := List.cons.inj hr
  rfl

/-- Every command's own error responses: INIT and POLL check `initialized`, the others have R140. -/
theorem exec_errorAnswersOnly {i : Instr} {s t : State} (h : exec i s = .next t) : ErrorAnswersOnly s t := by
  have hstate (hi : stateCommand i = true) : ErrorAnswersOnly s t := by
    obtain ⟨u, hu, -, -, -, -, -, hresponses, -, -, herror⟩ := stateCommandsAnswerWithoutPanelAction i s hi
    obtain rfl := Host.Outcome.next.inj (hu.symm.trans h)
    intro r hr hne
    obtain ⟨rfl, -⟩ := List.cons.inj (hr.symm.trans hresponses)
    exact herror hne
  cases i with
  | init =>
    cases hinit : s.initialized with
    | true =>
      obtain rfl := Host.Outcome.next.inj ((exec_init_again hinit).symm.trans h)
      exact errorAnswersOnly_answered _ s
    | false =>
      obtain rfl := Host.Outcome.next.inj ((exec_init_first hinit).symm.trans h)
      obtain ⟨hresponses, -⟩ := initLines_keeps s
      exact errorAnswersOnly_of_ok (congrArg _ hresponses)
  | poll =>
    cases hinit : s.initialized with
    | false =>
      obtain rfl := Host.Outcome.next.inj ((pollBeforeInitIsRejected s hinit).symm.trans h)
      exact errorAnswersOnly_answered _ s
    | true =>
      rcases Nat.lt_or_ge 999 s.display.toNat with hgt | hle
      · simp [exec, execPoll, hinit, displayMax, hgt] at h
      · obtain rfl := Host.Outcome.next.inj ((exec_poll_accepted hinit hle).symm.trans h)
        exact errorAnswersOnly_of_no_response rfl
  | _ => exact hstate rfl

/-- No action of a POLL gives a response. -/
theorem perform_responses (op : SeqOp) (rest : List SeqOp) (x : Sequencer × State) :
    (perform op rest x).2.responses = x.2.responses := by
  cases op <;> rfl

/-- A step of a running POLL gives no response, or the response OK of its end (43_poll.md R186, R187). -/
theorem runSequencer_errorAnswersOnly (p : Sequencer) (s : State) : ErrorAnswersOnly s (runSequencer p s) := by
  match htodo : p.todo with
  | [] =>
    have hend : runSequencer p s = finishPoll p s := by simp [runSequencer, htodo]
    rw [hend]
    exact errorAnswersOnly_of_ok rfl
  | [op] =>
    rw [runSequencer_last htodo]
    exact errorAnswersOnly_of_ok (congrArg _ (perform_responses op [] (p, s)))
  | op :: next :: rest =>
    rw [runSequencer_more htodo]
    exact errorAnswersOnly_of_no_response (perform_responses op (next :: rest) (p, s))

/-- Settles O22, by everything a step can do (`step_cases`). -/
theorem errorStatusChangesNothing : Obligations.ErrorStatusChangesNothing := by
  intro s t r hstep
  suffices h : ErrorAnswersOnly (taken s) t from h r
  rcases step_cases hstep with ⟨-, rfl⟩ | ⟨-, ⟨w, p, -, -, rfl⟩ | ⟨w, e, -, -, -, rfl⟩ | ⟨w, i, -, -, -, hexec⟩ |
    ⟨p, -, -, rfl⟩ | ⟨-, -, rfl⟩⟩
  · exact errorAnswersOnly_of_no_response (takeReset_responses _)
  · exact errorAnswersOnly_answered 6#3 (taken s)
  · exact errorAnswersOnly_answered 3#3 (taken s)
  · exact exec_errorAnswersOnly hexec
  · exact runSequencer_errorAnswersOnly p (taken s)
  · exact errorAnswersOnly_of_no_response rfl

/-! ## BUSY answers -/

/-- `s` with `n` BUSY answers given. -/
def answeredBusy : Nat → State → State
  | 0, s => s
  | n + 1, s => raise .busy (answeredBusy n s)

/-- The first of the BUSY answers taken apart. -/
theorem answeredBusy_raise (n : Nat) (s : State) : answeredBusy n (raise .busy s) = answeredBusy (n + 1) s := by
  induction n with
  | zero => rfl
  | succ n ih => exact congrArg (raise .busy) ih

/-- Any number of BUSY answers: each joins the history, and the registers hold the last (60_exceptions.md R203, R217). -/
theorem answeredBusy_eq (n : Nat) (s : State) : answeredBusy n s = { s with
    rspStatus := if n = 0 then s.rspStatus else 6#3
    rspData := if n = 0 then s.rspData else 0#32
    responses := List.replicate n ⟨6#3, 0#32⟩ ++ s.responses } := by
  induction n with
  | zero => rfl
  | succ n ih =>
    rw [answeredBusy, ih]
    rfl

/-- Words presented while a POLL runs: so many steps, so many BUSY answers (60_exceptions.md R217). -/
theorem run_words {s : State} {p : Sequencer} {words : List Word} {rest : List HostEvent} (hp : s.poll = some p)
    (hs : s.rspStatus ≠ 7#3) (hin : s.inputs = words.map HostEvent.word ++ rest) :
    Host.Core.run Sys2Proof.core words.length s = .next (answeredBusy words.length { s with inputs := rest }) := by
  induction words generalizing s with
  | nil =>
    subst hin
    rfl
  | cons w words ih =>
    rw [List.length_cons, run_succ (step_word_busy hin hs hp), ← answeredBusy_raise]
    exact ih hp (Status.code_ne_seven .busy) rfl

/-- Settles O10: each word is a BUSY answer, and so many of them in a row are `answeredBusy_eq`. -/
theorem wordsWhileBusyAreAnsweredBusy : Obligations.WordsWhileBusyAreAnsweredBusy := by
  intro s p words rest hp hs hin
  rw [run_words hp hs hin, answeredBusy_eq]
  simp only [List.length_eq_zero_iff]

/-! ## Words between the actions of a POLL -/

/-- The host does `es` in the next steps, where an exhausted list of events is quiet (log entry 4). -/
def Presents (es : List HostEvent) (s : State) : Prop := ∃ k, es <+: s.inputs ++ List.replicate k .quiet

/-- The first of the events is that of this step, the others are presented once it is taken. -/
theorem Presents.cons {e : HostEvent} {es : List HostEvent} {s : State} (h : Presents (e :: es) s) :
    event s = e ∧ Presents es (taken s) := by
  obtain ⟨k, hk⟩ := h
  rcases hin : s.inputs with _ | ⟨e', rest⟩
  · rw [hin] at hk
    cases k with
    | zero => simp at hk
    | succ k =>
      rw [List.nil_append, List.replicate_succ, List.cons_prefix_cons] at hk
      obtain ⟨rfl, hes⟩ := hk
      exact ⟨by simp [event, hin], k, by simpa [taken, hin] using hes⟩
  · rw [hin, List.cons_append, List.cons_prefix_cons] at hk
    obtain ⟨rfl, hes⟩ := hk
    exact ⟨by simp [event, hin], k, by simpa [taken, hin] using hes⟩

/-- A word presented is the first event of the list. -/
theorem inputs_of_event_word {s : State} {w : Word} (he : event s = .word w) : s.inputs = .word w :: s.inputs.tail := by
  cases hin : s.inputs <;> simp_all [event]

/-- No action of a POLL writes the status. -/
theorem perform_rspStatus (op : SeqOp) (rest : List SeqOp) (x : Sequencer × State) :
    (perform op rest x).2.rspStatus = x.2.rspStatus := by
  cases op <;> rfl

/-- An action of a POLL reads neither the response registers nor the history that a BUSY answer writes. -/
theorem perform_raise (op : SeqOp) (rest : List SeqOp) (status : Status) (p : Sequencer) (s : State) :
    perform op rest (p, raise status s) = ((perform op rest (p, s)).1, raise status (perform op rest (p, s)).2) := by
  cases op <;> rfl

@[inherit_doc perform_raise]
theorem performAll_raise (after ops : List SeqOp) (status : Status) (p : Sequencer) (s : State) :
    performAll after ops (p, raise status s) =
      ((performAll after ops (p, s)).1, raise status (performAll after ops (p, s)).2) := by
  induction ops generalizing p s with
  | nil => rfl
  | cons op ops ih =>
    simp only [performAll, perform_raise]
    exact ih _ _

/-- A quiet step of a running POLL is a step of its sequencer, on the state with the event taken. -/
theorem step_quiet_poll {s : State} (p : Sequencer) (he : event s = .quiet) (hs : s.rspStatus ≠ 7#3) :
    step { s with poll := some p } = .next (runSequencer p (taken { s with poll := some p })) :=
  step_of_quiet he hs

/-- A quiet step of a running POLL with more to follow is its next action. -/
theorem step_quiet_more {s : State} {p : Sequencer} {op next : SeqOp} {rest : List SeqOp} (he : event s = .quiet)
    (hs : s.rspStatus ≠ 7#3) (htodo : p.todo = op :: next :: rest) :
    step { s with poll := some p } = .next { (perform op (next :: rest) (p, s)).2 with
      poll := some (perform op (next :: rest) (p, s)).1, inputs := s.inputs.tail } := by
  rw [step_quiet_poll p he hs, runSequencer_more htodo, taken, perform_inputs, perform_poll]

/-- A quiet step of a running POLL with one action left is that action and the response. -/
theorem step_quiet_last {s : State} {p : Sequencer} {op : SeqOp} (he : event s = .quiet) (hs : s.rspStatus ≠ 7#3)
    (htodo : p.todo = [op]) :
    step { s with poll := some p } =
      .next (finishPoll (perform op [] (p, s)).1 { (perform op [] (p, s)).2 with inputs := s.inputs.tail }) := by
  rw [step_quiet_poll p he hs, runSequencer_last htodo, taken, perform_inputs, perform_poll]
  rfl

/-- All that is left of a POLL with words presented between its actions: the state at its response is that of the actions
alone, but that each word was answered BUSY before it (60_exceptions.md R217). -/
theorem run_to_response_with_words (es : List HostEvent) (ops : List SeqOp) (p : Sequencer) (s : State)
    (hin : Presents (es ++ [.quiet]) s) (hreset : .reset ∉ es) (hcount : ops.length = es.count .quiet + 1)
    (hs : s.rspStatus ≠ 7#3) (htodo : p.todo = ops) :
    Host.Core.run Sys2Proof.core (es.length + 1) { s with poll := some p } =
      .next (finishPoll (performAll [] ops (p, s)).1 (answeredBusy (es.length + 1 - ops.length)
        { (performAll [] ops (p, s)).2 with inputs := s.inputs.drop (es.length + 1) })) := by
  induction es generalizing ops p s with
  | nil =>
    obtain ⟨op, rfl⟩ := List.length_eq_one_iff.mp hcount
    have ⟨he, _⟩ := hin.cons
    rw [List.length_nil, Nat.zero_add, run_succ (step_quiet_last he hs htodo), List.drop_one]
    rfl
  | cons e es ih =>
    have ⟨he, hin'⟩ : event s = e ∧ Presents (es ++ [.quiet]) (taken s) := hin.cons
    have hreset' : .reset ∉ es := List.not_mem_of_not_mem_cons hreset
    rw [List.length_cons]
    cases e with
    | reset => exact absurd List.mem_cons_self hreset
    | word w =>
      have hcount' : ops.length = es.count .quiet + 1 := by simpa using hcount
      have hwords : es.length + 1 + 1 - ops.length = es.length + 1 - ops.length + 1 := by
        have hle : es.count .quiet ≤ es.length := List.count_le_length
        omega
      have hstep : step { s with poll := some p } = .next (raise .busy { taken s with poll := some p }) :=
        step_word_busy (inputs_of_event_word he) hs rfl
      have hrest := ih ops p (raise .busy (taken s)) hin' hreset' hcount' (Status.code_ne_seven .busy) htodo
      rw [performAll_raise, taken, performAll_inputs] at hrest
      rw [run_succ hstep, hwords, ← answeredBusy_raise, ← List.drop_tail]
      exact hrest
    | quiet =>
      have hcount' : ops.length = es.count .quiet + 1 + 1 := by simpa using hcount
      match ops with
      | op :: next :: rest =>
        have hrest := ih (next :: rest) (perform op (next :: rest) (p, s)).1
          { (perform op (next :: rest) (p, s)).2 with inputs := s.inputs.tail } hin' hreset' (Nat.succ.inj hcount')
          (by rw [perform_rspStatus]; exact hs) rfl
        rw [performAll_inputs] at hrest
        rw [run_succ (step_quiet_more he hs htodo), performAll, List.append_nil, List.length_cons (a := op),
          Nat.add_sub_add_right, ← List.drop_tail]
        exact hrest

/-- Settles O58: at the response the BUSY answers stand in the history only, and the rest is the effect of the POLL. -/
theorem wordsDuringAPollLeaveItsResult : Obligations.WordsDuringAPollLeaveItsResult := by
  intro s es rest k hinv hinit _ hevents hreset hcount
  refine ⟨_, exec_poll_accepted hinit hinv.display_le, ?_⟩
  have hin : Presents (es ++ [.quiet]) s := ⟨k, rest, by rw [hevents, List.append_assoc]; rfl⟩
  have hlen : es.length + 1 - pollProgram.length = es.length - 5629 := by
    rw [pollProgram_length]
    omega
  have heffect := finishPoll_pollProgram s
  rw [run_to_response_with_words es pollProgram (startSequencer s) s hin hreset
    (by rw [pollProgram_length, hcount]) hinv.status_ne rfl, hlen, answeredBusy_eq]
  generalize performAll [] pollProgram (startSequencer s, s) = x at heffect ⊢
  obtain ⟨hmask, hresponses⟩ := List.cons.inj (congrArg State.responses heffect)
  rw [← heffect, ← hmask, ← hresponses]
  rfl

end Sys2Proof
end

section
/-! PROOFS. Encoding: the round trips between words and commands, row by row of the opcode map, and what the assembler
accepts (30_encoding.md R70 to R82). -/

namespace Sys2Proof

open Sys2Proof.Machine Sys2Proof.Safety

/-! ## From a command to its word and back -/

/-- Field ID holds every identifier that fits it (30_encoding.md R73). -/
theorem fieldId_layout {id : Nat} (h : idFits id = true) (imm : BitVec 16) (s : Bool) (op : BitVec 8) :
    fieldId (layout imm s (BitVec.ofNat 3 id) op) = id := by
  rw [fieldId, layout_id, id_of_ofNat h]

/-- Field S holds its operand (30_encoding.md R74). -/
theorem fieldS_layout (imm : BitVec 16) (s : Bool) (id : BitVec 3) (op : BitVec 8) :
    fieldS (layout imm s id op) = s :=
  layout_s imm s id op

/-- Field IMM16 read unsigned holds every value that fits it (30_encoding.md R75). -/
theorem fieldUnsigned_wordV {v : Nat} (h : valueFits v = true) (op : BitVec 8) :
    fieldUnsigned (wordV op (BitVec.ofNat 16 v)) = v := by
  rw [fieldUnsigned, wordV, layout_imm, value_of_ofNat h]

/-- Field IMM16 read signed holds every temperature that fits it (30_encoding.md R75). -/
theorem fieldSigned_wordV {t : Int} (h : tempFits t = true) (op : BitVec 8) :
    fieldSigned (wordV op (BitVec.ofInt 16 t)) = t := by
  rw [fieldSigned, wordV, layout_imm, temp_of_ofInt h]

/-- A command comes back from its word where a row of the map selects the word and builds the command from it. -/
theorem decode_encode_of_row (k : Fin 17) {i : Instr}
    (hselects : encode i &&& opcodeMap[k].format.mask = opcodeMap[k].op.setWidth 32)
    (hbuild : opcodeMap[k].build (encode i) = i) : decode (encode i) = .ok i :=
  (decode_of_selects (List.getElem_mem _) (by simpa [Row.selects] using hselects)).trans (congrArg _ hbuild)

/-- Settles O2: each command's word is selected by the command's row, and each operand comes back from its field. -/
theorem decodeOfEncodeIsTheCommand : Obligations.DecodeOfEncodeIsTheCommand := by
  intro i hi
  cases i with
  | init => exact decode_encode_of_row 0 (wordN_masked _) rfl
  | poll => exact decode_encode_of_row 1 (wordN_masked _) rfl
  | setLed id s =>
    exact decode_encode_of_row 2 (wordIS_masked _ id s)
      (congr (congrArg Instr.setLed (fieldId_layout hi _ _ _)) (fieldS_layout _ _ _ _))
  | clearLed id => exact decode_encode_of_row 3 (wordI_masked _ id) (congrArg _ (fieldId_layout hi _ _ _))
  | toggleLed id => exact decode_encode_of_row 4 (wordI_masked _ id) (congrArg _ (fieldId_layout hi _ _ _))
  | getLed id => exact decode_encode_of_row 5 (wordI_masked _ id) (congrArg _ (fieldId_layout hi _ _ _))
  | setDisplay v => exact decode_encode_of_row 6 (wordV_masked _ _) (congrArg _ (fieldUnsigned_wordV hi _))
  | getDisplay => exact decode_encode_of_row 7 (wordN_masked _) rfl
  | enableDisplay s => exact decode_encode_of_row 8 (wordS_masked _ s) (congrArg _ (fieldS_layout _ _ _ _))
  | isDisplayEnabled => exact decode_encode_of_row 9 (wordN_masked _) rfl
  | setBuzzer s => exact decode_encode_of_row 10 (wordS_masked _ s) (congrArg _ (fieldS_layout _ _ _ _))
  | isBuzzing => exact decode_encode_of_row 11 (wordN_masked _) rfl
  | setCelsius s => exact decode_encode_of_row 12 (wordS_masked _ s) (congrArg _ (fieldS_layout _ _ _ _))
  | isCelsius => exact decode_encode_of_row 13 (wordN_masked _) rfl
  | getButton id => exact decode_encode_of_row 14 (wordI_masked _ id) (congrArg _ (fieldId_layout hi _ _ _))
  | cToF t => exact decode_encode_of_row 15 (wordV_masked _ _) (congrArg _ (fieldSigned_wordV hi _))
  | fToC t => exact decode_encode_of_row 16 (wordV_masked _ _) (congrArg _ (fieldSigned_wordV hi _))

/-! ## From a word to its command and back -/

/-- Two words that agree under a mask are one where they agree on the bits the mask leaves free. -/
theorem eq_of_masked_eq {v w m : Word} (hmasked : v &&& m = w &&& m)
    (hfree : ∀ i, i < 32 → m.getLsbD i = false → v.getLsbD i = w.getLsbD i) : v = w := by
  apply BitVec.eq_of_getLsbD_eq
  intro i hi
  cases hm : m.getLsbD i with
  | false => exact hfree i hi hm
  | true => simpa [hm] using congrArg (fun u => BitVec.getLsbD u i) hmasked

section OfMasked

variable {w : Word} {op : BitVec 8}

/-- A word of format N is its opcode (30_encoding.md R71, R72). -/
theorem wordN_of_masked (h : w &&& Format.N.mask = op.setWidth 32) : wordN op = w := by
  refine eq_of_masked_eq ((wordN_masked op).trans h.symm) fun i hi hm => ?_
  rw [mask_bit .N hi] at hm
  exact absurd hm.symm Bool.false_ne_true

/-- The three bits of field ID are those of the identifier read there. -/
theorem ofNat_fieldId (w : Word) : BitVec.ofNat 3 (fieldId w) = w.extractLsb' 8 3 := by
  rw [fieldId, BitVec.ofNat_toNat, BitVec.setWidth_eq]

/-- Where format I leaves a bit free it is one of field ID, and that is the word's own. -/
theorem wordI_of_masked (h : w &&& Format.I.mask = op.setWidth 32) : wordI op (fieldId w) = w := by
  refine eq_of_masked_eq ((wordI_masked op _).trans h.symm) fun i hi hm => ?_
  rw [mask_bit .I hi] at hm
  have hid : 8 ≤ i ∧ i < 11 := by simpa using hm
  simp [wordI, ofNat_fieldId, layout_bit _ _ _ _ hi, show ¬ i < 8 by omega, hid, show i - 8 < 3 by omega]

/-- Where format IS leaves a bit free it is one of field ID or field S. -/
theorem wordIS_of_masked (h : w &&& Format.IS.mask = op.setWidth 32) : wordIS op (fieldId w) (fieldS w) = w := by
  refine eq_of_masked_eq ((wordIS_masked op _ _).trans h.symm) fun i hi hm => ?_
  rw [mask_bit .IS hi] at hm
  rw [wordIS, layout_bit _ _ _ _ hi]
  by_cases h12 : i = 12
  · simp [h12, fieldS]
  · have hid : 8 ≤ i ∧ i < 11 := by simpa [h12] using hm
    simp [ofNat_fieldId, show ¬ i < 8 by omega, hid, show i - 8 < 3 by omega]

/-- Where format S leaves a bit free it is field S. -/
theorem wordS_of_masked (h : w &&& Format.S.mask = op.setWidth 32) : wordS op (fieldS w) = w := by
  refine eq_of_masked_eq ((wordS_masked op _).trans h.symm) fun i hi hm => ?_
  rw [mask_bit .S hi] at hm
  have h12 : i = 12 := by simpa using hm
  rw [h12, wordS, layout_s, fieldS]

/-- Where format V leaves a bit free it is one of field IMM16. -/
theorem wordV_of_masked (h : w &&& Format.V.mask = op.setWidth 32) : wordV op (w.extractLsb' 16 16) = w := by
  refine eq_of_masked_eq ((wordV_masked op _).trans h.symm) fun i hi hm => ?_
  rw [mask_bit .V hi] at hm
  have h16 : 16 ≤ i := by simpa using hm
  simp [wordV, layout_bit _ _ _ _ hi, show ¬ i < 8 by omega, show ¬ i < 11 by omega, show i ≠ 12 by omega,
    show ¬ i < 16 by omega, show i - 16 < 16 by omega, h16]

@[inherit_doc wordV_of_masked]
theorem wordV_fieldUnsigned (h : w &&& Format.V.mask = op.setWidth 32) :
    wordV op (BitVec.ofNat 16 (fieldUnsigned w)) = w := by
  rw [fieldUnsigned, BitVec.ofNat_toNat, BitVec.setWidth_eq, wordV_of_masked h]

@[inherit_doc wordV_of_masked]
theorem wordV_fieldSigned (h : w &&& Format.V.mask = op.setWidth 32) :
    wordV op (BitVec.ofInt 16 (fieldSigned w)) = w := by
  rw [fieldSigned, BitVec.ofInt_toInt, wordV_of_masked h]

end OfMasked

/-- Field ID holds identifiers that fit it only. -/
theorem idFits_fieldId (w : Word) : idFits (fieldId w) = true :=
  decide_eq_true (Nat.le_of_lt_succ (w.extractLsb' 8 3).isLt)

/-- Field IMM16 read unsigned holds values that fit it only. -/
theorem valueFits_fieldUnsigned (w : Word) : valueFits (fieldUnsigned w) = true :=
  decide_eq_true (Nat.le_of_lt_succ (w.extractLsb' 16 16).isLt)

/-- A 16-bit pattern read signed is a temperature that fits the field. -/
theorem tempFits_toInt (v : BitVec 16) : tempFits v.toInt = true := by
  have hlo := v.le_toInt
  have hhi := v.toInt_lt
  exact decide_eq_true (by omega)

/-- The words a row selects are the words of its commands, and these are well-formed. -/
def Row.Exact (r : Row) : Prop :=
  ∀ w : Word, w &&& r.format.mask = r.op.setWidth 32 → encode (r.build w) = w ∧ (r.build w).wellFormed = true

/-- No row of the opcode map ignores a bit of a word (30_encoding.md R72). -/
theorem opcodeMap_exact : ∀ r ∈ opcodeMap, r.Exact := by
  simp only [opcodeMap, List.forall_mem_cons]
  refine ⟨?init, ?poll, ?setLed, ?clearLed, ?toggleLed, ?getLed, ?setDisplay, ?getDisplay, ?enableDisplay,
    ?isDisplayEnabled, ?setBuzzer, ?isBuzzing, ?setCelsius, ?isCelsius, ?getButton, ?cToF, ?fToC,
    fun _ h => absurd h List.not_mem_nil⟩
  case init | poll | getDisplay | isDisplayEnabled | isBuzzing | isCelsius => exact fun w h => ⟨wordN_of_masked h, rfl⟩
  case setLed => exact fun w h => ⟨wordIS_of_masked h, idFits_fieldId w⟩
  case clearLed | toggleLed | getLed | getButton => exact fun w h => ⟨wordI_of_masked h, idFits_fieldId w⟩
  case setDisplay => exact fun w h => ⟨wordV_fieldUnsigned h, valueFits_fieldUnsigned w⟩
  case enableDisplay | setBuzzer | setCelsius => exact fun w h => ⟨wordS_of_masked h, rfl⟩
  case cToF | fToC => exact fun w h => ⟨wordV_fieldSigned h, tempFits_toInt _⟩

/-- A word that decodes is selected by a row of the map, whose command it is. -/
theorem selects_of_decode {w : Word} {i : Instr} (h : decode w = .ok i) :
    ∃ r ∈ opcodeMap, r.selects w = true ∧ r.build w = i := by
  rcases decode_cases w with ⟨r, hr, hs, hd⟩ | ⟨-, hd⟩
  · exact ⟨r, hr, hs, Except.ok.inj (hd.symm.trans h)⟩
  · exact nomatch hd.symm.trans h

/-- Settles O3: the word is that of the row it selects. -/
theorem encodeOfDecodeIsTheWord : Obligations.EncodeOfDecodeIsTheWord := by
  intro w i h
  obtain ⟨r, hr, hs, rfl⟩ := selects_of_decode h
  exact opcodeMap_exact r hr w ((r.selects_iff w).mp hs)

/-- Settles O4: the rows of the spec's table are those of the opcode map. -/
theorem wordIsCommandIffARowSelectsIt : Obligations.WordIsCommandIffARowSelectsIt := by
  intro w
  rw [← opcodeMap_maskMatch]
  constructor
  · rintro ⟨i, h⟩
    obtain ⟨r, hr, hs, -⟩ := selects_of_decode h
    exact ⟨r.maskMatch, List.mem_map_of_mem hr, (r.selects_iff w).mp hs⟩
  · rintro ⟨m, hm, h⟩
    obtain ⟨r, hr, rfl⟩ := List.mem_map.mp hm
    exact ⟨r.build w, decode_of_selects hr ((r.selects_iff w).mpr h)⟩

/-- Settles O1, by running the decoder on the words. -/
theorem decodesTheSpecsWords : Obligations.DecodesTheSpecsWords := by
  unfold Obligations.DecodesTheSpecsWords
  decide

/-! ## The assembler -/

/-- A number taken in a range lies in it (30_encoding.md R80). -/
theorem of_within {lo hi z y : Int} (h : within lo hi z = some y) : lo ≤ y ∧ y ≤ hi := by
  unfold within at h
  split at h
  · next hz =>
    obtain rfl := Option.some.inj h
    exact hz
  · exact nomatch h

/-- A number taken in a range that begins at 0 is at most the end of the range as a natural number. -/
theorem le_of_within_toNat {hi : Nat} {z : Int} {n : Nat} (h : (within 0 hi z).map Int.toNat = some n) : n ≤ hi := by
  obtain ⟨y, hy, rfl⟩ := Option.map_eq_some_iff.mp h
  obtain ⟨-, hle⟩ := of_within hy
  omega

/-- An operand ID fits its field where every name of the list does (30_encoding.md R80, R81). -/
theorem asmId_fits {names : List (String × Nat)} (hnames : ∀ entry ∈ names, entry.2 ≤ 7) {o : AsmOperand} {n : Nat}
    (h : asmId names o = some n) : idFits n = true := by
  refine decide_eq_true ?_
  cases o with
  | name text =>
    obtain ⟨entry, hentry, rfl⟩ := Option.map_eq_some_iff.mp h
    exact hnames entry (List.mem_of_find?_eq_some hentry)
  | dec z | hex z => exact le_of_within_toNat (hi := 7) h

/-- The number of an LED name fits field ID (30_encoding.md R81). -/
theorem ledNames_le : ∀ entry ∈ ledNames, entry.2 ≤ 7 := by decide

/-- The number of a button name fits field ID (30_encoding.md R81). -/
theorem buttonNames_le : ∀ entry ∈ buttonNames, entry.2 ≤ 7 := by decide

/-- An operand of SET_DISPLAY fits its field (30_encoding.md R80). -/
theorem asmValue_fits {o : AsmOperand} {v : Nat} (h : asmValue o = some v) : valueFits v = true := by
  refine decide_eq_true ?_
  cases o with
  | name text => exact nomatch h
  | dec z | hex z => exact le_of_within_toNat (hi := 65535) h

/-- An operand of a conversion fits its field (30_encoding.md R80). -/
theorem asmTemp_fits {o : AsmOperand} {t : Int} (h : asmTemp o = some t) : tempFits t = true := by
  cases o with
  | name text => exact nomatch h
  | dec z => exact decide_eq_true (of_within h)
  | hex n =>
    obtain ⟨y, -, rfl⟩ := Option.map_eq_some_iff.mp h
    exact tempFits_toInt _

/-- A command of one operand is well-formed where the operand taken fits. -/
theorem wellFormed_of_map {α : Type} {o : Option α} {f : α → Instr} {i : Instr} (h : o.map f = some i)
    (hf : ∀ a, o = some a → (f a).wellFormed = true) : i.wellFormed = true := by
  obtain ⟨a, ha, rfl⟩ := Option.map_eq_some_iff.mp h
  exact hf a ha

/-- Settles O7, line by line (case `h_k` is the k-th line of `assemble`): each operand that is taken fits its field. -/
theorem assembledCommandFitsItsFields : Obligations.AssembledCommandFitsItsFields := by
  intro mnemonic operands i h
  unfold assemble at h
  split at h
  case h_3 | h_5 | h_6 | h_7 => exact wellFormed_of_map h fun _ => asmId_fits ledNames_le
  case h_4 =>
    obtain ⟨n, hn, hstate⟩ := Option.bind_eq_some_iff.mp h
    exact wellFormed_of_map hstate fun _ _ => asmId_fits ledNames_le hn
  case h_8 => exact wellFormed_of_map h fun _ => asmValue_fits
  case h_11 | h_14 | h_16 => exact wellFormed_of_map h fun _ _ => rfl
  case h_18 => exact wellFormed_of_map h fun _ => asmId_fits buttonNames_le
  case h_19 | h_20 => exact wellFormed_of_map h fun _ => asmTemp_fits
  case h_21 => exact nomatch h
  all_goals
    obtain rfl := Option.some.inj h
    rfl

/-- Settles O8: the operand S of SET_LED is taken after its identifier, and `1` is the state it is by default. -/
theorem assemblerDefaultOperands : Obligations.AssemblerDefaultOperands := by
  refine ⟨fun id => ?_, rfl, rfl, rfl, rfl, rfl⟩
  show (asmId ledNames id).map (fun n => Instr.setLed n true) =
    (asmId ledNames id).bind (fun n => some (Instr.setLed n true))
  cases asmId ledNames id <;> rfl

end Sys2Proof
end

section
/-! PROOFS. The conversions and the commands of 42_state_commands.md: what two of them in sequence do, and everything
one command can do to the state (10_state.md R28). -/

namespace Sys2Proof

open Sys2Proof.Machine Sys2Proof.Safety

/-! ## The conversions -/

/-- C2F is strictly within 1/2 of 9t/5 + 32: twice a difference of integers is not the odd 5 (42_state_commands.md R151,
R158). -/
theorem c2f_nearest (t : Int) :
    -5 < 2 * (5 * c2f t - (9 * t + 160)) ∧ 2 * (5 * c2f t - (9 * t + 160)) < 5 := by
  obtain ⟨hge, hle⟩ := rha_nearest (9 * t + 160) (show (0 : Int) < 5 by decide)
  unfold c2f
  omega

/-- F2C is strictly within 1/2 of 5(t - 32)/9: twice a difference of integers is not the odd 9 (42_state_commands.md
R152, R158). -/
theorem f2c_nearest (t : Int) :
    -9 < 2 * (9 * f2c t - 5 * (t - 32)) ∧ 2 * (9 * f2c t - 5 * (t - 32)) < 9 := by
  obtain ⟨hge, hle⟩ := rha_nearest (5 * (t - 32)) (show (0 : Int) < 9 by decide)
  unfold f2c
  omega

/-- Settles O52: `rha` rounds to the nearest, and both divisors are odd. -/
theorem conversionsRoundToTheNearest : Obligations.ConversionsRoundToTheNearest :=
  fun t => ⟨c2f_nearest t, f2c_nearest t⟩

/-- F2C undoes C2F (42_state_commands.md R159 (a)). -/
theorem f2c_c2f (t : Int) : f2c (c2f t) = t := by
  have hc := c2f_nearest t
  have hf := f2c_nearest (c2f t)
  omega

/-- Where C2F stays in the legal display values (42_state_commands.md R159 (c)). -/
theorem c2f_le_iff (d : Int) : c2f d ≤ 999 ↔ d ≤ 537 := by
  have hc := c2f_nearest d
  omega

/-- Where F2C stays in the legal display values (42_state_commands.md R159 (c)). -/
theorem f2c_nonneg_iff (d : Int) : 0 ≤ f2c d ↔ 32 ≤ d := by
  have hf := f2c_nearest d
  omega

/-- Settles O53: the laws follow from both conversions being nearest integers. -/
theorem conversionLaws : Obligations.ConversionLaws :=
  ⟨f2c_c2f, by decide, fun d _ _ => ⟨c2f_le_iff d, f2c_nonneg_iff d⟩, by decide⟩

/-! ## The unit -/

/-- SET_CELSIUS 0 from Celsius, where the converted value is legal (42_state_commands.md R153). -/
theorem exec_setCelsius_false {s : State} (hs : s.celsius = true) (hd : s.display.toNat ≤ 537) :
    exec (.setCelsius false) s = .next (answered 0#3 0#32
      { s with display := BitVec.ofNat 10 (c2f s.display.toNat).toNat, celsius := false }) := by
  obtain ⟨-, -, hstored⟩ := setCelsiusRescalesTheDisplay s false
  have hc := c2f_nearest s.display.toNat
  have hlo : 0 ≤ c2f s.display.toNat := by omega
  exact hstored (by simp [hs]) hlo ((c2f_le_iff _).mpr (by omega))

/-- SET_CELSIUS 1 from Fahrenheit, where the converted value is legal (42_state_commands.md R153). -/
theorem exec_setCelsius_true {s : State} (hs : s.celsius = false) (hlo : 32 ≤ s.display.toNat)
    (hhi : s.display.toNat ≤ 999) :
    exec (.setCelsius true) s = .next (answered 0#3 0#32
      { s with display := BitVec.ofNat 10 (f2c s.display.toNat).toNat, celsius := true }) := by
  obtain ⟨-, -, hstored⟩ := setCelsiusRescalesTheDisplay s true
  have hf := f2c_nearest s.display.toNat
  have hle : f2c s.display.toNat ≤ 999 := by omega
  exact hstored (by simp [hs]) ((f2c_nonneg_iff _).mpr (by omega)) hle

/-- INVALID_ARGUMENT is not OK. -/
theorem answered_invalidArgument_ne_ok {data : Word} {s : State} : (answered 1#3 data s).rspStatus ≠ 0#3 :=
  show (1#3 : BitVec 3) ≠ 0#3 by decide

/-- Settles O49: outside the range the converted value is no legal one, and the command is rejected. -/
theorem setCelsiusSucceedsExactlyInRange : Obligations.SetCelsiusSucceedsExactlyInRange := by
  intro s hd
  constructor
  · intro hs
    by_cases h : s.display.toNat ≤ 537
    · exact ⟨_, exec_setCelsius_false hs h, iff_of_true rfl h⟩
    · obtain ⟨-, hrejected, -⟩ := setCelsiusRescalesTheDisplay s false
      have hout : ¬ c2f s.display.toNat ≤ 999 := by rw [c2f_le_iff]; omega
      exact ⟨_, hrejected (by simp [hs]) (.inr (Int.not_le.mp hout)), iff_of_false answered_invalidArgument_ne_ok h⟩
  · intro hs
    by_cases h : 32 ≤ s.display.toNat
    · exact ⟨_, exec_setCelsius_true hs h hd, iff_of_true rfl h⟩
    · obtain ⟨-, hrejected, -⟩ := setCelsiusRescalesTheDisplay s true
      have hout : ¬ 0 ≤ f2c s.display.toNat := by rw [f2c_nonneg_iff]; omega
      exact ⟨_, hrejected (by simp [hs]) (.inl (Int.not_le.mp hout)), iff_of_false answered_invalidArgument_ne_ok h⟩

/-- Settles O50: the value stored in between is C2F of the first, which F2C undoes. -/
theorem unitRoundTripRestoresTheDisplay : Obligations.UnitRoundTripRestoresTheDisplay := by
  intro s hs hd
  have hc := c2f_nearest s.display.toNat
  have hstored : (BitVec.ofNat 10 (c2f s.display.toNat).toNat).toNat = (c2f s.display.toNat).toNat := by
    rw [BitVec.toNat_ofNat]
    omega
  have hint : ((c2f s.display.toNat).toNat : Int) = c2f s.display.toNat := by omega
  refine ⟨_, _, exec_setCelsius_false hs hd, rfl, exec_setCelsius_true rfl ?_ ?_, rfl, ?_, rfl⟩
  · show 32 ≤ (BitVec.ofNat 10 (c2f s.display.toNat).toNat).toNat
    omega
  · show (BitVec.ofNat 10 (c2f s.display.toNat).toNat).toNat ≤ 999
    omega
  · show BitVec.ofNat 10 (f2c (BitVec.ofNat 10 (c2f s.display.toNat).toNat).toNat).toNat = s.display
    rw [hstored, hint, f2c_c2f, Int.toNat_natCast, BitVec.ofNat_toNat, BitVec.setWidth_eq]

/-! ## LEDs and the display -/

/-- Settles O41: inverting a flag twice restores it, and another identifier changes none. -/
theorem toggleTwiceRestoresTheLeds : Obligations.ToggleTwiceRestoresTheLeds := by
  intro s id
  rcases Nat.lt_or_ge 4 id with hgt | hle
  · exact ⟨_, _, (toggleLedInvertsItsFlag s id).2 hgt, (toggleLedInvertsItsFlag _ id).2 hgt, rfl⟩
  · refine ⟨_, _, (toggleLedInvertsItsFlag s id).1 hle, (toggleLedInvertsItsFlag _ id).1 hle, ?_⟩
    show (s.led.set id (!s.led[id])).set id (!(s.led.set id (!s.led[id]))[id]) = s.led
    rw [Vector.getElem_set_self, Bool.not_not, Vector.set_set, Vector.set_getElem_self]

/-- Settles O43: a value up to 999 fits the ten bits of `display`. -/
theorem getDisplayReturnsWhatWasSet : Obligations.GetDisplayReturnsWhatWasSet := by
  intro s v hv
  refine ⟨_, _, (setDisplayStoresOrRejects s v).1 hv, (getDisplayReadsTheValue _).1, rfl, ?_⟩
  simp only [answered, BitVec.toNat_ofNat]
  omega

/-! ## The reads -/

/-- A command that only reads gives a response made of the device state alone, and nothing else (20_memory.md R58). -/
theorem read_answers_the_device {i : Instr} (hi : readsOnly i = true) (s : State) :
    ∃ status data, status ≠ 7#3 ∧ ∀ u, SameDevice s u → exec i u = .next (answered status data u) := by
  cases i with
  | getLed id =>
    rcases Nat.lt_or_ge 4 id with hgt | hle
    · exact ⟨2#3, 0#32, by decide, fun u _ => (getLedReadsItsFlag u id).2 hgt⟩
    · exact ⟨0#3, if s.led[id] then 1#32 else 0#32, by decide, fun u h => by
        rw [(getLedReadsItsFlag u id).1 hle]; simp only [h.led]⟩
  | getButton id =>
    rcases Nat.lt_or_ge 6 id with hgt | hle
    · exact ⟨2#3, 0#32, by decide, fun u _ => (getButtonReadsTheStoredButton u id).2 hgt⟩
    · exact ⟨0#3, if s.button[id] then 1#32 else 0#32, by decide, fun u h => by
        rw [(getButtonReadsTheStoredButton u id).1 hle]; simp only [h.button]⟩
  | getDisplay => exact ⟨0#3, displayData s.display, by decide, fun u h => by rw [← h.display]; rfl⟩
  | isDisplayEnabled => exact ⟨0#3, boolData s.displayEn, by decide, fun u h => by rw [← h.displayEn]; rfl⟩
  | isBuzzing => exact ⟨0#3, boolData s.buzzer, by decide, fun u h => by rw [← h.buzzer]; rfl⟩
  | isCelsius => exact ⟨0#3, boolData s.celsius, by decide, fun u h => by rw [← h.celsius]; rfl⟩
  | cToF t => exact ⟨0#3, tempData (c2f t), by decide, fun _ _ => rfl⟩
  | fToC t => exact ⟨0#3, tempData (f2c t), by decide, fun _ _ => rfl⟩
  | init | poll | setLed | clearLed | toggleLed | setDisplay | enableDisplay | setBuzzer | setCelsius =>
    exact absurd hi Bool.false_ne_true

/-- A state has its own device state. -/
theorem sameDevice_refl (s : State) : SameDevice s s := by
  constructor <;> rfl

/-- A response is no part of the device state. -/
theorem answered_sameDevice (status : BitVec 3) (data : Word) (s : State) : SameDevice s (answered status data s) := by
  constructor <;> rfl

/-- Settles O24: the response written by the first read is no part of the device state that the second one reads. -/
theorem readsAreIdempotent : Obligations.ReadsAreIdempotent := by
  intro i s hi
  obtain ⟨status, data, -, h⟩ := read_answers_the_device hi s
  have hsame := answered_sameDevice status data s
  exact ⟨_, _, h s (sameDevice_refl s), h _ hsame, hsame, answered_withDevice_samePanel status data s s, rfl, rfl, rfl,
    rfl⟩

/-! ## Everything a command can do -/

/-- A command that writes LED flags (10_state.md R28). -/
def WritesLeds (i : Instr) : Prop :=
  (∃ id b, i = .setLed id b) ∨ (∃ id, i = .clearLed id) ∨ (∃ id, i = .toggleLed id)

/-- The next states command `i` can give in `s`: it responds only, it writes its own registers and responds, it drives
the lines (INIT), or it starts the sequencer (POLL). -/
inductive Effect (s : State) : Instr → State → Prop where
  | answer (i : Instr) (status : BitVec 3) (data : Word) (hstatus : status ≠ 7#3) : Effect s i (answered status data s)
  | leds (i : Instr) (hi : WritesLeds i) (v : Vector Bool 5) : Effect s i (answered 0#3 0#32 { s with led := v })
  | display (v : Nat) (hv : v ≤ 999) :
    Effect s (.setDisplay v) (answered 0#3 0#32 { s with display := BitVec.ofNat 10 v })
  | displayEn (b : Bool) : Effect s (.enableDisplay b) (answered 0#3 0#32 { s with displayEn := b })
  | buzzer (b : Bool) : Effect s (.setBuzzer b) (answered 0#3 0#32 { s with buzzer := b })
  | celsius (b : Bool) (v : Nat) (hv : v ≤ 999) :
    Effect s (.setCelsius b) (answered 0#3 0#32 { s with display := BitVec.ofNat 10 v, celsius := b })
  | init (h : s.initialized = false) : Effect s .init (ret 0#32 { initLines s with initialized := true })
  | poll (h : s.initialized = true) : Effect s .poll { s with poll := some (startSequencer s) }

/-- An LED command that writes, by what it answers on a legal identifier and above. -/
theorem ledCommand_effect {i : Instr} (hi : WritesLeds i) {s : State} {id : Nat} {v : id ≤ 4 → Vector Bool 5}
    (h : (∀ hle : id ≤ 4, exec i s = .next (answered 0#3 0#32 { s with led := v hle })) ∧
      (4 < id → exec i s = .next (answered 2#3 0#32 s))) : ∃ t, exec i s = .next t ∧ Effect s i t := by
  obtain ⟨hlegal, habove⟩ := h
  rcases Nat.lt_or_ge 4 id with hgt | hle
  · exact ⟨_, habove hgt, .answer i _ _ (by decide)⟩
  · exact ⟨_, hlegal hle, .leds i hi _⟩

/-- A command that only reads. -/
theorem read_effect {i : Instr} (hi : readsOnly i = true) (s : State) : ∃ t, exec i s = .next t ∧ Effect s i t := by
  obtain ⟨status, data, hstatus, h⟩ := read_answers_the_device hi s
  exact ⟨_, h s (sameDevice_refl s), .answer i status data hstatus⟩

/-- SET_CELSIUS, by its three cases (42_state_commands.md R153). -/
theorem setCelsius_effect (s : State) (b : Bool) :
    ∃ t, exec (.setCelsius b) s = .next t ∧ Effect s (.setCelsius b) t := by
  obtain ⟨hsame, hrejected, hstored⟩ := setCelsiusRescalesTheDisplay s b
  by_cases hb : b = s.celsius
  · exact ⟨_, hsame hb, .answer _ _ _ (by decide)⟩
  by_cases hout : rescaled b s < 0 ∨ 999 < rescaled b s
  · exact ⟨_, hrejected hb hout, .answer _ _ _ (by decide)⟩
  · have hlo : 0 ≤ rescaled b s := by omega
    have hhi : rescaled b s ≤ 999 := by omega
    exact ⟨_, hstored hb hlo hhi, .celsius b (rescaled b s).toNat (by omega)⟩

/-- POLL where `display` is above 999 stops (10_state.md R23; log entry 9). -/
theorem exec_poll_fault {s : State} (hinit : s.initialized = true) (hd : 999 < s.display.toNat) :
    exec .poll s = .fault .displayOutOfRange := by
  simp [exec, execPoll, hinit, displayMax, hd]

/-- Everything a command can do: one of its effects, or the fault of a POLL with `display` above 999. -/
theorem exec_cases (i : Instr) (s : State) :
    (∃ t, exec i s = .next t ∧ Effect s i t) ∨ (999 < s.display.toNat ∧ exec i s = .fault .displayOutOfRange) := by
  cases i with
  | init =>
    cases hinit : s.initialized with
    | false => exact .inl ⟨_, exec_init_first hinit, .init hinit⟩
    | true => exact .inl ⟨_, exec_init_again hinit, .answer _ _ _ (by decide)⟩
  | poll =>
    cases hinit : s.initialized with
    | false => exact .inl ⟨_, pollBeforeInitIsRejected s hinit, .answer _ _ _ (by decide)⟩
    | true =>
      rcases Nat.lt_or_ge 999 s.display.toNat with hgt | hle
      · exact .inr ⟨hgt, exec_poll_fault hinit hgt⟩
      · exact .inl ⟨_, exec_poll_accepted hinit hle, .poll hinit⟩
  | setLed id b => exact .inl (ledCommand_effect (.inl ⟨id, b, rfl⟩) (setLedWritesItsFlag s id b))
  | clearLed id => exact .inl (ledCommand_effect (.inr (.inl ⟨id, rfl⟩)) (clearLedClearsItsFlag s id))
  | toggleLed id => exact .inl (ledCommand_effect (.inr (.inr ⟨id, rfl⟩)) (toggleLedInvertsItsFlag s id))
  | setDisplay v =>
    obtain ⟨hstored, hrejected⟩ := setDisplayStoresOrRejects s v
    rcases Nat.lt_or_ge 999 v with hgt | hle
    · exact .inl ⟨_, hrejected hgt, .answer _ _ _ (by decide)⟩
    · exact .inl ⟨_, hstored hle, .display v hle⟩
  | enableDisplay b => exact .inl ⟨_, (flagWritesAreTheirOperand s b).1, .displayEn b⟩
  | setBuzzer b => exact .inl ⟨_, (flagWritesAreTheirOperand s b).2, .buzzer b⟩
  | setCelsius b => exact .inl (setCelsius_effect s b)
  | getLed | getDisplay | isDisplayEnabled | isBuzzing | isCelsius | getButton | cToF | fToC =>
    exact .inl (read_effect rfl s)

/-- What a command that gives a next state has done. -/
theorem exec_effect {i : Instr} {s t : State} (h : exec i s = .next t) : Effect s i t := by
  rcases exec_cases i s with ⟨u, hu, heffect⟩ | ⟨-, hfault⟩
  · obtain rfl := Host.Outcome.next.inj (hu.symm.trans h)
    exact heffect
  · exact nomatch hfault.symm.trans h

/-- Settles O23: each effect names the registers it writes. -/
theorem commandsWriteOnlyTheirRegisters : Obligations.CommandsWriteOnlyTheirRegisters := by
  intro i s t h
  have hpanel (r : State) := answered_withDevice_samePanel 0#3 0#32 r s
  cases exec_effect h with
  | answer i status data hstatus =>
    exact ⟨.inl rfl, .inl rfl, .inl rfl, .inl rfl, .inl rfl, rfl, .inl rfl,
      .inl (answered_withDevice_samePanel status data s s), .inl rfl⟩
  | leds i hi v =>
    exact ⟨.inr hi, .inl rfl, .inl rfl, .inl rfl, .inl rfl, rfl, .inl rfl, .inl (hpanel { s with led := v }),
      .inl rfl⟩
  | display v hv =>
    exact ⟨.inl rfl, .inr (.inl ⟨v, rfl⟩), .inl rfl, .inl rfl, .inl rfl, rfl, .inl rfl,
      .inl (hpanel { s with display := BitVec.ofNat 10 v }), .inl rfl⟩
  | displayEn b =>
    exact ⟨.inl rfl, .inl rfl, .inr ⟨b, rfl⟩, .inl rfl, .inl rfl, rfl, .inl rfl,
      .inl (hpanel { s with displayEn := b }), .inl rfl⟩
  | buzzer b =>
    exact ⟨.inl rfl, .inl rfl, .inl rfl, .inr ⟨b, rfl⟩, .inl rfl, rfl, .inl rfl,
      .inl (hpanel { s with buzzer := b }), .inl rfl⟩
  | celsius b v hv =>
    exact ⟨.inl rfl, .inr (.inr ⟨b, rfl⟩), .inl rfl, .inl rfl, .inr ⟨b, rfl⟩, rfl, .inl rfl,
      .inl (hpanel { s with display := BitVec.ofNat 10 v, celsius := b }), .inl rfl⟩
  | init h =>
    obtain ⟨hled, hdisplay, hdisplayEn, hbuzzer, hcelsius, hbutton⟩ := initLines_sameDevice s
    obtain ⟨-, hpoll, -⟩ := initLines_keeps s
    exact ⟨.inl hled, .inl hdisplay, .inl hdisplayEn, .inl hbuzzer, .inl hcelsius, hbutton, .inr rfl, .inr rfl,
      .inl hpoll⟩
  | poll h =>
    exact ⟨.inl rfl, .inl rfl, .inl rfl, .inl rfl, .inl rfl, rfl, .inl rfl,
      .inl ⟨rfl, rfl, rfl, rfl, rfl, rfl, rfl, rfl⟩, .inr rfl⟩

end Sys2Proof
end

section
/-! PROOFS. POLL: the shape of its fixed sequence (43_poll.md R183 to R189), its start, and one action of it with what
the action writes and leaves alone. -/

namespace Sys2Proof

open Sys2Proof.Machine Sys2Proof.Safety

/-! ## The samples and the transfers of the sequence -/

/-- The button an operation samples. -/
def sampledButton : SeqOp → Option (Fin 7)
  | .sample b => some b
  | _ => none

/-- The frame whose transfer an operation begins. -/
def begunFrame : SeqOp → Option FrameKind
  | .beginTransfer kind => some kind
  | _ => none

/-- The buttons a list of operations samples, in order. -/
def samplesIn (l : List SeqOp) : List (Fin 7) := l.filterMap sampledButton

/-- The frames a list of operations sends, in order. -/
def framesIn (l : List SeqOp) : List FrameKind := l.filterMap begunFrame

@[simp] theorem samplesIn_append (l l' : List SeqOp) : samplesIn (l ++ l') = samplesIn l ++ samplesIn l' :=
  List.filterMap_append

@[simp] theorem framesIn_append (l l' : List SeqOp) : framesIn (l ++ l') = framesIn l ++ framesIn l' :=
  List.filterMap_append

/-- A button is sampled by an operation of the list exactly where it is one of its samples. -/
theorem mem_samplesIn {b : Fin 7} {l : List SeqOp} : b ∈ samplesIn l ↔ .sample b ∈ l := by
  rw [samplesIn, List.mem_filterMap]
  constructor
  · rintro ⟨op, hop, h⟩
    cases op <;> simp_all [sampledButton]
  · exact fun h => ⟨_, h, rfl⟩

/-- The operation that begins a transfer puts its frame among those sent. -/
theorem mem_framesIn {kind : FrameKind} {l : List SeqOp} (h : .beginTransfer kind ∈ l) : kind ∈ framesIn l :=
  List.mem_filterMap.mpr ⟨_, h, rfl⟩

@[simp] theorem samplesIn_transferOps (kind : FrameKind) : samplesIn (transferOps kind) = [] := rfl

@[simp] theorem framesIn_transferOps (kind : FrameKind) : framesIn (transferOps kind) = [kind] := rfl

@[simp] theorem samplesIn_nil : samplesIn [] = [] := rfl

@[simp] theorem framesIn_nil : framesIn [] = [] := rfl

@[simp] theorem samplesIn_wait (n : Nat) (l : List SeqOp) : samplesIn (.wait n :: l) = samplesIn l := rfl

@[simp] theorem framesIn_wait (n : Nat) (l : List SeqOp) : framesIn (.wait n :: l) = framesIn l := rfl

/-- A refresh pass takes no sample (43_poll.md R183). -/
theorem samplesIn_passOps : samplesIn passOps = [] := by
  simp [passOps_eq, positionOps]

/-- The frames of a refresh pass, in order (43_poll.md R183). -/
def passKinds : List FrameKind :=
  [.led, .idle, .display 0, .idle, .display 1, .idle, .display 2, .idle, .display 3, .idle]

/-- A refresh pass sends its ten frames (43_poll.md R183). -/
theorem framesIn_passOps : framesIn passOps = passKinds := by
  simp [passOps_eq, positionOps, passKinds]

/-- A scan step samples its button (43_poll.md R184). -/
theorem samplesIn_scanOps (b : Fin 7) : samplesIn (scanOps b) = [b] := rfl

/-- A scan step sends its scan frame (43_poll.md R184). -/
theorem framesIn_scanOps (b : Fin 7) : framesIn (scanOps b) = [.scan b] := rfl

/-- A POLL samples the buttons in scan order, each once (43_poll.md R184, R185). -/
theorem samplesIn_pollProgram : samplesIn pollProgram = scanOrder := by
  simp [pollProgram_eq, samplesIn_passOps, samplesIn_scanOps, scanOrder]

/-- A POLL sends the frames of five passes, then the scan frames (43_poll.md R183, R184). -/
theorem framesIn_pollProgram :
    framesIn pollProgram = (List.replicate nPasses passKinds).flatten ++ scanOrder.map .scan := by
  simp [pollProgram_eq, framesIn_passOps, framesIn_scanOps, scanOrder, nPasses, List.replicate]

/-- As many elements pass a filter as a partial function is defined on, where these are the same. -/
theorem length_filter_eq_length_filterMap {α β : Type} {p : α → Bool} {f : α → Option β}
    (h : ∀ a, p a = (f a).isSome) (l : List α) : (l.filter p).length = (l.filterMap f).length := by
  obtain rfl : p = fun a => (f a).isSome := funext h
  rw [List.length_filterMap_eq_countP, List.countP_eq_length_filter]

/-- An operation begins the transfer of a frame exactly where that is the frame it begins. -/
theorem beq_beginTransfer (kind : FrameKind) (op : SeqOp) :
    (op == .beginTransfer kind) = ((begunFrame op).map (· == kind)).getD false := by
  cases op with
  | beginTransfer k => exact decide_eq_decide.mpr ⟨SeqOp.beginTransfer.inj, congrArg _⟩
  | clockLow | wait | driveData | clockHigh | endTransfer | sample => rfl

/-- How many transfers send a frame of one kind, counted among the frames sent (43_poll.md R189). -/
theorem transfersOf_eq_count (kind : FrameKind) : transfersOf kind = (framesIn pollProgram).count kind := by
  rw [transfersOf, framesIn, List.count, List.countP_filterMap, ← List.countP_eq_length_filter]
  exact congrArg (fun f => pollProgram.countP f) (funext (beq_beginTransfer kind))

/-- Each scan step ends with its sample, 100 actions after the one before (43_poll.md R184, R188). -/
theorem getElem?_scans (bs : List (Fin 7)) (k : Nat) :
    (bs.flatMap scanOps)[99 + 100 * k]? = bs[k]?.map SeqOp.sample := by
  induction bs generalizing k with
  | nil => rfl
  | cons b bs ih =>
    rw [List.flatMap_cons]
    cases k with
    | zero => rfl
    | succ k =>
      rw [List.getElem?_append_right (by rw [scanOps_length]; omega), scanOps_length,
        show 99 + 100 * (k + 1) - 100 = 99 + 100 * k by omega, ih, List.getElem?_cons_succ]

/-- The `k`-th sample of a POLL is its action 5029 + 100k (43_poll.md R188). -/
theorem pollProgram_sample (k : Fin 7) : pollProgram[5029 + 100 * k.val]? = some (.sample scanOrder[k]) := by
  have hpasses : (List.replicate nPasses passOps).flatten.length = 4930 := by simp [passOps_length, nPasses]
  have hk : k.val < scanOrder.length := k.isLt
  rw [pollProgram, List.getElem?_append_right (by omega), hpasses,
    show 5029 + 100 * k.val - 4930 = 99 + 100 * k.val by omega, getElem?_scans, List.getElem?_eq_getElem hk]
  rfl

/-! ## The idle frame before every display frame -/

/-- Wherever a list of operations begins the transfer of a display frame, it began one of the idle frame 98 actions
before: a whole transfer (43_poll.md R183 (b); 70_reset_and_hazards.md R235). -/
def IdleBeforeDisplay (l : List SeqOp) : Prop :=
  ∀ n (q : Fin 4), l[n]? = some (.beginTransfer (.display q)) → 98 ≤ n ∧ l[n - 98]? = some (.beginTransfer .idle)

/-- A list that sends no display frame. -/
theorem idleBeforeDisplay_of_framesIn {l : List SeqOp} (h : ∀ q, .display q ∉ framesIn l) : IdleBeforeDisplay l :=
  fun _ q hn => absurd (mem_framesIn (List.mem_of_getElem? hn)) (h q)

/-- Two lists one after the other. -/
theorem IdleBeforeDisplay.append {l l' : List SeqOp} (h : IdleBeforeDisplay l) (h' : IdleBeforeDisplay l') :
    IdleBeforeDisplay (l ++ l') := by
  intro n q hn
  rcases Nat.lt_or_ge n l.length with hlt | hge
  · rw [List.getElem?_append_left hlt] at hn
    obtain ⟨hle, hidle⟩ := h n q hn
    exact ⟨hle, by rw [List.getElem?_append_left (by omega), hidle]⟩
  · rw [List.getElem?_append_right hge] at hn
    obtain ⟨hle, hidle⟩ := h' _ q hn
    refine ⟨by omega, ?_⟩
    rw [List.getElem?_append_right (by omega), show n - 98 - l.length = n - l.length - 98 by omega, hidle]

/-- A display position: its one display frame is begun right after the idle frame (43_poll.md R183 (b)). -/
theorem positionOps_idleBeforeDisplay (q : Fin 4) : IdleBeforeDisplay (positionOps q) := by
  intro n r hn
  rcases Nat.lt_trichotomy n 98 with hlt | rfl | hgt
  · rw [positionOps, List.getElem?_append_left hlt] at hn
    exact absurd (mem_framesIn (List.mem_of_getElem? hn)) (by simp)
  · exact ⟨Nat.le_refl _, rfl⟩
  · obtain ⟨k, rfl⟩ := Nat.exists_eq_add_of_lt hgt
    have hrest : framesIn ((positionOps q).drop 99) = [] := rfl
    rw [show 98 + k + 1 = 99 + k by omega, ← List.getElem?_drop] at hn
    exact absurd (mem_framesIn (List.mem_of_getElem? hn)) (by simp [hrest])

/-- A refresh pass (43_poll.md R183). -/
theorem passOps_idleBeforeDisplay : IdleBeforeDisplay passOps := by
  have hq := positionOps_idleBeforeDisplay
  have hled : IdleBeforeDisplay (transferOps .led ++ [.wait tSettle]) := idleBeforeDisplay_of_framesIn (by simp)
  have hidle : IdleBeforeDisplay (transferOps .idle ++ [.wait tSettle]) := idleBeforeDisplay_of_framesIn (by simp)
  rw [passOps_eq]
  exact hled.append ((hq 0).append ((hq 1).append ((hq 2).append ((hq 3).append hidle))))

/-- The whole POLL: its passes, and the scan, which sends no display frame. -/
theorem pollProgram_idleBeforeDisplay : IdleBeforeDisplay pollProgram := by
  have hpass := passOps_idleBeforeDisplay
  have hscan (b : Fin 7) : IdleBeforeDisplay (scanOps b) :=
    idleBeforeDisplay_of_framesIn (by simp [framesIn_scanOps])
  rw [pollProgram_eq]
  exact hpass.append (hpass.append (hpass.append (hpass.append (hpass.append ((hscan 1).append ((hscan 3).append
    ((hscan 4).append ((hscan 5).append ((hscan 2).append ((hscan 0).append (hscan 6)))))))))))

/-- Settles O36: the counts are those of the samples and the frames of the sequence. -/
theorem pollSequenceHasItsShape : Obligations.PollSequenceHasItsShape := by
  refine ⟨passOps_length, scanOps_length, pollProgram_length, pollProgram_sample, ?samples, ?transfers, ?led, ?idle,
    ?display, ?scan, pollProgram_idleBeforeDisplay⟩
  case samples =>
    rw [length_filter_eq_length_filterMap (f := sampledButton) (fun op => by cases op <;> rfl)]
    exact congrArg List.length samplesIn_pollProgram
  case transfers =>
    rw [length_filter_eq_length_filterMap (f := begunFrame) (fun op => by cases op <;> rfl)]
    exact congrArg List.length framesIn_pollProgram
  all_goals
    simp only [transfersOf_eq_count, framesIn_pollProgram]
    decide

/-! ## The start and the time of a POLL -/

/-- Settles O27: the sequencer starts with the whole sequence to go and the frames of the present state. -/
theorem pollStartsWithTheSnapshot : Obligations.PollStartsWithTheSnapshot := by
  intro s hinit hd
  refine ⟨_, exec_poll_accepted hinit hd, rfl, rfl, pollProgram_length, rfl, rfl, fun q => ?_⟩
  match q with
  | 0 | 1 | 2 | 3 => rfl

/-- Settles O29: the time of the POLL's effect is the nominal one and what the actions took beyond it. -/
theorem pollTakesAtLeastItsNominalTime : Obligations.PollTakesAtLeastItsNominalTime := by
  intro s hinv hinit hpoll hin
  obtain ⟨t, hexec, hrun⟩ := pollRunsToItsWholeEffect s hinv hinit hpoll hin
  exact ⟨t, pollEffect s, hexec, hrun, Nat.le_add_right _ _⟩

/-! ## One action -/

/-- The fields that no action of a POLL writes agree: what its frames are made of (43_poll.md R182), `initialized`, and
that DIN is an input. -/
structure SameSettings (s t : State) : Prop where
  led : t.led = s.led
  display : t.display = s.display
  displayEn : t.displayEn = s.displayEn
  buzzer : t.buzzer = s.buzzer
  celsius : t.celsius = s.celsius
  initialized : t.initialized = s.initialized
  dinInput : t.dinInput = s.dinInput
  tables : t.tables = s.tables

/-- An action leaves the settings as they are. -/
theorem perform_sameSettings (op : SeqOp) (rest : List SeqOp) (p : Sequencer) (s : State) :
    SameSettings s (perform op rest (p, s)).2 := by
  obtain ⟨hled, hdisplay, hdisplayEn, hbuzzer, hcelsius, hinit, -, -, hdin, htables, -⟩ := perform_keeps op rest (p, s)
  exact ⟨hled, hdisplay, hdisplayEn, hbuzzer, hcelsius, hinit, hdin, htables⟩

/-- An action joins the history (log entry 7). -/
theorem perform_actions (op : SeqOp) (rest : List SeqOp) (x : Sequencer × State) :
    (perform op rest x).2.actions = x.1.action op :: x.2.actions := by
  cases op <;> rfl

/-- An action takes no host event. -/
theorem perform_inputs_eq (op : SeqOp) (rest : List SeqOp) (x : Sequencer × State) :
    (perform op rest x).2.inputs = x.2.inputs := by
  cases op <;> rfl

/-- An action gives no response. -/
theorem perform_sameResponse (op : SeqOp) (rest : List SeqOp) (p : Sequencer) (s : State) :
    SameResponse s (perform op rest (p, s)).2 := by
  obtain ⟨-, -, -, -, -, -, hstatus, hdata, -, -, -, hresponses, -⟩ := perform_keeps op rest (p, s)
  exact ⟨hstatus, hdata, hresponses⟩

/-- An action with more to follow leaves the POLL running. -/
theorem runSequencer_of_more {p : Sequencer} {op : SeqOp} {rest : List SeqOp} (h : p.todo = op :: rest)
    (hrest : rest ≠ []) (s : State) :
    runSequencer p s = { (perform op rest (p, s)).2 with poll := some (perform op rest (p, s)).1 } := by
  obtain ⟨next, rest, rfl⟩ := List.exists_cons_of_ne_nil hrest
  exact runSequencer_more h s

/-- A step of the sequencer is its action, and beside that writes the sequencer and the response only. -/
theorem runSequencer_eq_perform {p : Sequencer} {op : SeqOp} {rest : List SeqOp} (h : p.todo = op :: rest) (s : State) :
    ∃ poll status data responses, runSequencer p s = { (perform op rest (p, s)).2 with
      poll := poll, rspStatus := status, rspData := data, responses := responses } := by
  by_cases hrest : rest = []
  · subst hrest
    exact ⟨_, _, _, _, runSequencer_last h s⟩
  · exact ⟨_, _, _, _, runSequencer_of_more h hrest s⟩

/-- Settles O35: a step of the sequencer is one action, and the response with the last. -/
theorem seqAdvancesByOneUntilTheResponse : Obligations.SeqAdvancesByOneUntilTheResponse := by
  intro s p op rest hquiet hs hp htodo
  refine ⟨_, p.action op, step_quietFor hquiet hs hp, ?actions, ?inputs, ?more, ?last⟩
  case actions =>
    obtain ⟨_, _, _, _, heq⟩ := runSequencer_eq_perform htodo (taken s)
    rw [heq]
    exact perform_actions op rest (p, taken s)
  case inputs =>
    obtain ⟨_, _, _, _, heq⟩ := runSequencer_eq_perform htodo (taken s)
    rw [heq]
    exact perform_inputs_eq op rest (p, taken s)
  case more =>
    intro hrest
    have ⟨hstatus, hdata, hresponses⟩ := perform_sameResponse op rest p (taken s)
    rw [runSequencer_of_more htodo hrest]
    exact ⟨rfl, ⟨hstatus, hdata, hresponses⟩, _, rfl, perform_seq op rest _, rfl⟩
  case last =>
    rintro rfl
    rw [runSequencer_last htodo]
    exact ⟨rfl, rfl, congrArg _ (perform_responses op [] (p, taken s))⟩

/-! ## The sample -/

/-- The level of DIN at a sample taken now: the next the panel supplies, else a free draw (60_exceptions.md R215). -/
theorem dinLevel_eq (s : State) : dinLevel s = s.dinLevels.head?.getD (Config.freeDin s.draws) := by
  unfold dinLevel
  cases s.dinLevels <;> rfl

/-- Recording a button leaves the other bits of the mask as they are (43_poll.md R185). -/
theorem markPressed_bit_ne {b : Fin 7} {k : Nat} (hk : k ≠ b.val) (pressed : Bool) (mask : BitVec 7) :
    (markPressed b pressed mask).getLsbD k = mask.getLsbD k := by
  rcases Nat.lt_or_ge k 7 with hlt | hge
  · have hne : (⟨k, hlt⟩ : Fin 7) ≠ b := fun e => hk (congrArg Fin.val e)
    simpa [hne] using markPressed_bit b ⟨k, hlt⟩ pressed mask
  · rw [BitVec.getLsbD_of_ge _ _ hge, BitVec.getLsbD_of_ge _ _ hge]

/-- Recording a button sets its bit of the mask where it is pressed (43_poll.md R184). -/
theorem markPressed_bit_self (b : Fin 7) (pressed : Bool) (mask : BitVec 7) :
    (markPressed b pressed mask).getLsbD b.val = (mask.getLsbD b.val || pressed) := by
  rw [markPressed_bit, decide_eq_true rfl, Bool.and_true]

/-- The data of the response has the bits of the mask (43_poll.md R186). -/
theorem maskData_bit (mask : BitVec 7) (k : Nat) : (maskData mask).getLsbD k = mask.getLsbD k := by
  rcases Nat.lt_or_ge k 7 with hlt | hge
  · rw [maskData, BitVec.getLsbD_setWidth, decide_eq_true (show k < 32 by omega), Bool.true_and]
  · rw [maskData, BitVec.getLsbD_setWidth, BitVec.getLsbD_of_ge mask k hge, Bool.and_false]

/-- Settles O34: the sample writes its button and marks it in the mask, which the last one also gives as data. -/
theorem sampleRecordsItsButton : Obligations.SampleRecordsItsButton := by
  intro s p b rest hquiet hs hp htodo
  have hbutton : (runSequencer p (taken s)).button = s.button.set b (!dinLevel s) := by
    obtain ⟨_, _, _, _, heq⟩ := runSequencer_eq_perform htodo (taken s)
    rw [heq]
    rfl
  have hself : (runSequencer p (taken s)).button[b] = !dinLevel s := by
    rw [hbutton]
    simp
  refine ⟨_, step_quietFor hquiet hs hp, ?self, ?others, ?more, ?last, ?frame⟩
  case self => rw [hself, dinLevel_eq]
  case others =>
    intro c hc
    have hval : b.val ≠ c.val := fun e => hc (Fin.ext e.symm)
    rw [hbutton]
    exact Vector.getElem_set_ne b.isLt c.isLt hval
  case more =>
    intro hrest
    rw [hself, runSequencer_of_more htodo hrest]
    exact ⟨_, rfl, rfl, markPressed_bit_self b _ _, fun k hk => markPressed_bit_ne hk _ _⟩
  case last =>
    rintro rfl
    rw [hself, runSequencer_last htodo]
    exact ⟨rfl, rfl, (maskData_bit _ _).trans (markPressed_bit_self b _ _),
      fun k hk => (maskData_bit _ _).trans (markPressed_bit_ne hk _ _)⟩
  case frame =>
    obtain ⟨_, _, _, _, heq⟩ := runSequencer_eq_perform htodo (taken s)
    rw [heq]
    exact ⟨rfl, rfl, rfl, rfl, rfl, rfl, rfl, rfl, rfl, rfl, rfl, rfl, rfl, rfl⟩

end Sys2Proof
end

section
/-! PROOFS. The machine: a step, a reset, what no step but INIT, POLL or reset writes, and the invariant. -/

namespace Sys2Proof

open Sys2Proof.Machine Sys2Proof.Safety

/-! ## A step -/

/-- Settles O9: the port decodes the word where no POLL runs. -/
theorem stepRunsTheDecodedCommand : Obligations.StepRunsTheDecodedCommand := by
  intro s w rest i hin hpoll hs hdecode
  simp [step, takeEvent, hin, onEvent, guarded, hs, presentWord, State.busy, hpoll, hdecode]

/-- Settles O20: the reserved status stops every step but a reset, and POLL asks for a legal `display`. -/
theorem theTwoModelFaults : Obligations.TheTwoModelFaults :=
  ⟨fun s w rest hin hs => step_reserved (by simp [hin]) hs, fun _ => exec_poll_fault⟩

/-- A reset taken is the first event of the list. -/
theorem inputs_of_event_reset {s : State} (he : event s = .reset) : s.inputs = .reset :: s.inputs.tail := by
  cases hin : s.inputs <;> simp_all [event]

/-! ## Reset -/

/-- No LED is on right after reset (70_reset_and_hazards.md R232). -/
theorem reset_led (l : Fin 5) : #v[false, false, false, false, false][l] = false := by
  revert l
  decide

/-- Settles O12: `takeReset` has the reset values, and its buttons are the draw at the counter. -/
theorem resetAppliesTheResetValues : Obligations.ResetAppliesTheResetValues := by
  intro s rest hin
  refine ⟨_, step_reset hin, reset_led, rfl, rfl, rfl, rfl, rfl, rfl, rfl, rfl, rfl, rfl, rfl, rfl, rfl, rfl, rfl, rfl,
    rfl, fun s' rest' hin' hdraws => ⟨_, step_reset hin', ?_⟩⟩
  exact congrArg Config.freeButtons hdraws

/-- Settles O13. -/
theorem resetStateHoldsTheSpecsValues : Obligations.ResetStateHoldsTheSpecsValues :=
  ⟨reset_led, rfl, rfl, rfl, rfl, rfl, rfl, rfl, rfl, rfl, rfl, rfl, rfl, rfl⟩

/-! ## What a step writes -/

/-- A step of the sequencer leaves the settings as they are. -/
theorem runSequencer_sameSettings (p : Sequencer) (s : State) : SameSettings s (runSequencer p s) := by
  cases htodo : p.todo with
  | nil =>
    have hend : runSequencer p s = finishPoll p s := by simp [runSequencer, htodo]
    rw [hend]
    exact ⟨rfl, rfl, rfl, rfl, rfl, rfl, rfl, rfl⟩
  | cons op rest =>
    obtain ⟨_, _, _, _, heq⟩ := runSequencer_eq_perform htodo s
    have ⟨hled, hdisplay, hdisplayEn, hbuzzer, hcelsius, hinit, hdin, htables⟩ := perform_sameSettings op rest p s
    rw [heq]
    exact ⟨hled, hdisplay, hdisplayEn, hbuzzer, hcelsius, hinit, hdin, htables⟩

/-- No command writes a constant table (10_state.md R34). -/
theorem Effect.tables {s t : State} {i : Instr} (h : Effect s i t) : t.tables = s.tables := by
  cases h with
  | init =>
    obtain ⟨-, -, htables, -⟩ := initLines_keeps s
    exact htables
  | answer | leds | display | displayEn | buzzer | celsius | poll => rfl

/-- Settles O17, by everything a step can do (`step_cases`). -/
theorem tablesAreNeverWritten : Obligations.TablesAreNeverWritten := by
  intro s t hstep
  rcases step_cases hstep with ⟨-, rfl⟩ | ⟨-, ⟨w, p, -, -, rfl⟩ | ⟨w, e, -, -, -, rfl⟩ | ⟨w, i, -, -, -, hexec⟩ |
    ⟨p, -, -, rfl⟩ | ⟨-, -, rfl⟩⟩
  · exact takeReset_tables _
  · rfl
  · rfl
  · exact (exec_effect hexec).tables
  · exact (runSequencer_sameSettings p (taken s)).tables
  · rfl

/-- Only a first INIT writes `initialized` among the commands (10_state.md R29). -/
theorem Effect.initialized {s t : State} {i : Instr} (h : Effect s i t) (hne : t.initialized ≠ s.initialized) :
    i = .init ∧ s.initialized = false ∧ t.initialized = true := by
  cases h with
  | init hinit => exact ⟨rfl, hinit, rfl⟩
  | answer | leds | display | displayEn | buzzer | celsius | poll => exact absurd rfl hne

/-- The one word of INIT (30_encoding.md R76). -/
theorem word_of_decode_init {w : Word} (h : decode w = .ok .init) : w = 0x00000001#32 := by
  obtain ⟨hw, -⟩ := encodeOfDecodeIsTheWord w .init h
  rw [← hw]
  decide

/-- Settles O18: a command changes the flag only as INIT, and INIT has one word. -/
theorem onlyInitAndResetChangeInitialized : Obligations.OnlyInitAndResetChangeInitialized := by
  intro s t hstep hne
  rcases step_cases hstep with ⟨he, rfl⟩ | ⟨-, ⟨w, p, -, -, rfl⟩ | ⟨w, e, -, -, -, rfl⟩ |
    ⟨w, i, he, hpoll, hdecode, hexec⟩ | ⟨p, -, -, rfl⟩ | ⟨-, -, rfl⟩⟩
  · exact .inr ⟨rfl, _, inputs_of_event_reset he⟩
  · exact absurd rfl hne
  · exact absurd rfl hne
  · obtain ⟨rfl, hbefore, hafter⟩ := (exec_effect hexec).initialized hne
    obtain rfl := word_of_decode_init hdecode
    exact .inl ⟨hbefore, hafter, hpoll, _, inputs_of_event_word he⟩
  · exact absurd (runSequencer_sameSettings p (taken s)).initialized hne
  · exact absurd rfl hne

/-- Settles O19: no command writes `button`, and the sequencer runs in a POLL only. -/
theorem buttonsAreHeldWithoutAScan : Obligations.ButtonsAreHeldWithoutAScan := by
  intro s t hstep hidle hreset
  rcases step_cases hstep with ⟨he, -⟩ | ⟨-, ⟨w, p, -, -, rfl⟩ | ⟨w, e, -, -, -, rfl⟩ | ⟨w, i, -, -, -, hexec⟩ |
    ⟨p, -, hp, -⟩ | ⟨-, -, rfl⟩⟩
  · exact absurd (inputs_of_event_reset he) (hreset _)
  · rfl
  · rfl
  · obtain ⟨-, -, -, -, -, hbutton, -⟩ := commandsWriteOnlyTheirRegisters i (taken s) t hexec
    exact hbutton
  · exact nomatch hidle.symm.trans hp
  · rfl

/-! ## The invariant: steps that touch neither the lines nor a running POLL -/

section SameSettings

variable {s t : State} (h : SameSettings s t)
include h

/-- The frames are made of the settings (41_frame_builder.md R120). -/
theorem SameSettings.idleNow : t.idleNow = s.idleNow := by
  rw [State.idleNow, h.tables, h.buzzer, State.idleNow]

@[inherit_doc SameSettings.idleNow]
theorem SameSettings.ledNow : t.ledNow = s.ledNow := by
  rw [State.ledNow, h.tables, h.buzzer, h.led, State.ledNow]

@[inherit_doc SameSettings.idleNow]
theorem SameSettings.displayNow (q : Fin 4) : t.displayNow q = s.displayNow q := by
  rw [State.displayNow, h.tables, h.buzzer, h.display, h.displayEn, h.celsius, State.displayNow]

end SameSettings

/-- Where the settings, the lines and the sequencer are as before, the invariant holds as before. -/
theorem inv_of_same {s t : State} (hinv : Inv s) (hset : SameSettings s t) (hclk : t.clk = s.clk)
    (hdout : t.dout = s.dout) (hweN : t.weN = s.weN) (hpoll : t.poll = s.poll) (hstatus : t.rspStatus ≠ 7#3) :
    Inv t where
  display_le := hset.display ▸ hinv.display_le
  status_ne := hstatus
  tables_wf := hset.tables ▸ hinv.tables_wf
  din_input := hset.dinInput ▸ hinv.din_input
  before_init := by
    rw [hset.initialized, hclk, hdout, hweN, hpoll]
    exact hinv.before_init
  after_init := by
    rw [hset.initialized, hclk, hdout, hweN]
    exact hinv.after_init
  idle_lines := by
    rw [hset.initialized, hclk, hweN, hpoll]
    exact hinv.idle_lines
  running := by
    rw [hpoll]
    intro p hp
    obtain ⟨hinit, hseq, htodo, hwait, hidle, hled, hdisp, hclkEnd, hweNEnd⟩ := hinv.running p hp
    exact ⟨hset.initialized ▸ hinit, hseq, htodo, hwait, hset.idleNow ▸ hidle, hset.ledNow ▸ hled,
      fun q => hset.displayNow q ▸ hdisp q, hclk ▸ hclkEnd, hweN ▸ hweNEnd⟩

/-- Taking the host event. -/
theorem inv_taken {s : State} (hinv : Inv s) : Inv (taken s) :=
  inv_of_same hinv ⟨rfl, rfl, rfl, rfl, rfl, rfl, rfl, rfl⟩ rfl rfl rfl rfl hinv.status_ne

/-- A response with any status but the reserved one. -/
theorem inv_answered {s : State} {status : BitVec 3} (hinv : Inv s) (hstatus : status ≠ 7#3) (data : Word) :
    Inv (answered status data s) :=
  inv_of_same hinv ⟨rfl, rfl, rfl, rfl, rfl, rfl, rfl, rfl⟩ rfl rfl rfl rfl hstatus

/-- A value up to 999 fits `display`. -/
theorem display_ofNat_le {v : Nat} (hv : v ≤ 999) : (BitVec.ofNat 10 v).toNat ≤ 999 := by
  rw [BitVec.toNat_ofNat]
  omega

/-- Between POLLs the device-state registers are free, but that `display` is a legal value (10_state.md R23). -/
theorem inv_withDevice {s : State} (hinv : Inv s) (hidle : s.poll = none) {r : State} (hd : r.display.toNat ≤ 999) :
    Inv (withDevice r s) where
  display_le := hd
  status_ne := hinv.status_ne
  tables_wf := hinv.tables_wf
  din_input := hinv.din_input
  before_init := hinv.before_init
  after_init := hinv.after_init
  idle_lines := hinv.idle_lines
  running := fun _ hp => nomatch hidle.symm.trans hp

/-! ## The invariant: reset -/

/-- The reset values meet the invariant, over any tables that meet 00_scope.md R9. -/
theorem inv_takeReset {s : State} (htables : s.tables.wf = true) : Inv (takeReset s) where
  display_le := show (20#10).toNat ≤ 999 by decide
  status_ne := Status.code_ne_seven .ok
  tables_wf := htables
  din_input := rfl
  before_init := fun _ => ⟨rfl, rfl, rfl, rfl⟩
  after_init := nofun
  idle_lines := nofun
  running := nofun

/-- Settles O14: the tables of this SPC meet 00_scope.md R9, and the rest are the reset values. -/
theorem resetMeetsTheInvariant : Obligations.ResetMeetsTheInvariant :=
  inv_of_same (inv_takeReset (s := State.reset) Config.tables_wf) ⟨rfl, rfl, rfl, rfl, rfl, rfl, rfl, rfl⟩ rfl rfl rfl
    rfl (Status.code_ne_seven .ok)

/-! ## The invariant: commands -/

/-- The lines driven high by INIT are those of an idle SPC (10_state.md R32; 40_transport.md R104). -/
theorem inv_init {s : State} (hinv : Inv s) (hidle : s.poll = none) : Inv { initLines s with initialized := true } := by
  obtain ⟨hclk, hdout, hweN, hdin⟩ := initLines_lines s
  obtain ⟨-, hdisplay, -⟩ := initLines_sameDevice s
  obtain ⟨-, hpoll, htables, -⟩ := initLines_keeps s
  have hstatus : (initLines s).rspStatus = s.rspStatus := by simp [initLines]
  have hdriven {v : Level} (hv : v = .high) : v ≠ .z := hv ▸ nofun
  exact {
    display_le := Nat.le_trans (Nat.le_of_eq (congrArg BitVec.toNat hdisplay)) hinv.display_le
    status_ne := fun h => hinv.status_ne (hstatus.symm.trans h)
    tables_wf := (congrArg Tables.wf htables).trans hinv.tables_wf
    din_input := hdin
    before_init := nofun
    after_init := fun _ => ⟨hdriven hclk, hdriven hdout, hdriven hweN⟩
    idle_lines := fun _ _ => ⟨hclk, hweN⟩
    running := fun _ hp => nomatch hidle.symm.trans (hpoll.symm.trans hp) }

/-- A POLL just accepted is in order: all of its sequence is to go, and ends with the lines idle (43_poll.md R191). -/
theorem sequencerOk_start {s : State} (hinit : s.initialized = true) :
    SequencerOk { s with poll := some (startSequencer s) } (startSequencer s) where
  initialized := hinit
  seq_lt := Nat.zero_lt_succ _
  todo_eq := rfl
  wait_eq := rfl
  idle_eq := rfl
  led_eq := rfl
  disp_eq := fun q => match q with
    | 0 | 1 | 2 | 3 => rfl
  clk_end := pollProgram_endClk s.clk
  weN_end := pollProgram_endWeN s.weN

/-- An accepted POLL. -/
theorem inv_poll_start {s : State} (hinv : Inv s) (hinit : s.initialized = true) :
    Inv { s with poll := some (startSequencer s) } where
  display_le := hinv.display_le
  status_ne := hinv.status_ne
  tables_wf := hinv.tables_wf
  din_input := hinv.din_input
  before_init := fun h => nomatch hinit.symm.trans h
  after_init := hinv.after_init
  idle_lines := nofun
  running := fun _ hp => Option.some.inj hp ▸ sequencerOk_start hinit

/-- Every command on an idle SPC keeps the invariant. -/
theorem inv_effect {s t : State} {i : Instr} (hinv : Inv s) (hidle : s.poll = none) (h : Effect s i t) : Inv t := by
  have hok : Status.ok.code ≠ 7#3 := Status.code_ne_seven .ok
  have hdevice (r : State) (hd : r.display.toNat ≤ 999) : Inv (answered 0#3 0#32 (withDevice r s)) :=
    inv_answered (inv_withDevice hinv hidle hd) hok 0#32
  cases h with
  | answer _ status data hstatus => exact inv_answered hinv hstatus data
  | leds _ hi v => exact hdevice { s with led := v } hinv.display_le
  | display v hv => exact hdevice { s with display := BitVec.ofNat 10 v } (display_ofNat_le hv)
  | displayEn b => exact hdevice { s with displayEn := b } hinv.display_le
  | buzzer b => exact hdevice { s with buzzer := b } hinv.display_le
  | celsius b v hv => exact hdevice { s with display := BitVec.ofNat 10 v, celsius := b } (display_ofNat_le hv)
  | init hinit => exact inv_answered (inv_init hinv hidle) hok 0#32
  | poll hinit => exact inv_poll_start hinv hinit

/-! ## The invariant: an action of a running POLL -/

/-- What CLK ends with does not change as the actions are performed. -/
theorem perform_endClk (op : SeqOp) (rest : List SeqOp) (p : Sequencer) (s : State) :
    endClk (perform op rest (p, s)).2.clk rest = endClk s.clk (op :: rest) := by
  cases op <;> rfl

@[inherit_doc perform_endClk]
theorem perform_endWeN (op : SeqOp) (rest : List SeqOp) (p : Sequencer) (s : State) :
    endWeN (perform op rest (p, s)).2.weN rest = endWeN s.weN (op :: rest) := by
  cases op <;> rfl

/-- The output lines are driven (10_state.md R32). -/
def Driven (s : State) : Prop := s.clk ≠ .z ∧ s.dout ≠ .z ∧ s.weN ≠ .z

/-- A line set to a value is driven. -/
theorem ofBool_ne_z (v : Bool) : Level.ofBool v ≠ .z := by
  cases v <;> nofun

/-- A panel action leaves driven lines driven. -/
theorem Driven.perform {s : State} (h : Driven s) (op : SeqOp) (rest : List SeqOp) (p : Sequencer) :
    Driven (perform op rest (p, s)).2 := by
  obtain ⟨hclk, hdout, hweN⟩ := h
  cases op with
  | beginTransfer => exact ⟨hclk, hdout, ofBool_ne_z false⟩
  | endTransfer => exact ⟨hclk, hdout, ofBool_ne_z true⟩
  | clockLow => exact ⟨ofBool_ne_z false, hdout, hweN⟩
  | clockHigh => exact ⟨ofBool_ne_z true, hdout, hweN⟩
  | driveData => exact ⟨hclk, ofBool_ne_z (p.frame.getLsbD p.bitIndex), hweN⟩
  | wait | sample => exact ⟨hclk, hdout, hweN⟩

/-- A running POLL in order has an action to perform. -/
theorem Safety.SequencerOk.todo_cons {s : State} {p : Sequencer} (h : SequencerOk s p) :
    ∃ op rest, p.todo = op :: rest := by
  refine List.exists_cons_of_ne_nil ?_
  rw [h.todo_eq, ne_eq, List.drop_eq_nil_iff, pollProgram_length]
  exact Nat.not_le.mpr h.seq_lt

section Action

variable {s : State} {p : Sequencer} {op : SeqOp} {rest : List SeqOp} (hok : SequencerOk s p)
  (htodo : p.todo = op :: rest)
include hok htodo

/-- What is left after an action is the sequence from the next position on (43_poll.md R188). -/
theorem Safety.SequencerOk.rest_eq : rest = pollProgram.drop (p.seq + 1) := by
  rw [← List.tail_drop, ← hok.todo_eq, htodo, List.tail_cons]

/-- A POLL in order with more to follow is in order after its action. -/
theorem Safety.SequencerOk.perform (hrest : rest ≠ []) :
    SequencerOk { (perform op rest (p, s)).2 with poll := some (perform op rest (p, s)).1 }
      (perform op rest (p, s)).1 := by
  have hset := perform_sameSettings op rest p s
  have hleft := hok.rest_eq htodo
  have hseq := perform_seq op rest (p, s)
  have hlt : p.seq + 1 < 5630 := by
    rw [hleft, ne_eq, List.drop_eq_nil_iff, pollProgram_length] at hrest
    exact Nat.not_le.mp hrest
  exact {
    initialized := hset.initialized.trans hok.initialized
    seq_lt := Nat.lt_of_le_of_lt (Nat.le_of_eq hseq) hlt
    todo_eq := hleft.trans (congrArg (pollProgram.drop ·) hseq.symm)
    wait_eq := rfl
    idle_eq := (perform_idle op rest _).trans (hok.idle_eq.trans hset.idleNow.symm)
    led_eq := (perform_ledFrame op rest _).trans (hok.led_eq.trans hset.ledNow.symm)
    disp_eq := fun q => by
      rw [perform_disp, hok.disp_eq q]
      exact (hset.displayNow q).symm
    clk_end := (perform_endClk op rest p s).trans (htodo ▸ hok.clk_end)
    weN_end := (perform_endWeN op rest p s).trans (htodo ▸ hok.weN_end) }

end Action

/-- After INIT the invariant goes on where the settings are as before, the lines are driven, and they are idle or the
running POLL is in order. -/
theorem inv_of_initialized {s t : State} (hinv : Inv s) (hinit : s.initialized = true) (hset : SameSettings s t)
    (hstatus : t.rspStatus ≠ 7#3) (hdriven : Driven t) (hlines : t.poll = none → t.clk = .high ∧ t.weN = .high)
    (hrunning : ∀ p, t.poll = some p → SequencerOk t p) : Inv t where
  display_le := hset.display ▸ hinv.display_le
  status_ne := hstatus
  tables_wf := hset.tables ▸ hinv.tables_wf
  din_input := hset.dinInput ▸ hinv.din_input
  before_init := fun h => nomatch (hset.initialized.trans hinit).symm.trans h
  after_init := fun _ => hdriven
  idle_lines := fun _ => hlines
  running := hrunning

/-- A step of a running POLL keeps the invariant: with more to follow the sequencer is in order, and after the last
action the lines are idle (43_poll.md R187, R191). -/
theorem inv_runSequencer {s : State} {p : Sequencer} (hinv : Inv s) (hp : s.poll = some p) :
    Inv (runSequencer p s) := by
  have hok := hinv.running p hp
  have hset := runSequencer_sameSettings p s
  obtain ⟨op, rest, htodo⟩ := hok.todo_cons
  have hdriven := Driven.perform (hinv.after_init hok.initialized) op rest p
  by_cases hrest : rest = []
  · subst hrest
    have hclk : (perform op [] (p, s)).2.clk = .high := (perform_endClk op [] p s).trans (htodo ▸ hok.clk_end)
    have hweN : (perform op [] (p, s)).2.weN = .high := (perform_endWeN op [] p s).trans (htodo ▸ hok.weN_end)
    rw [runSequencer_last htodo] at hset ⊢
    exact inv_of_initialized hinv hok.initialized hset (Status.code_ne_seven .ok) hdriven (fun _ => ⟨hclk, hweN⟩) nofun
  · have hstatus : (perform op rest (p, s)).2.rspStatus ≠ 7#3 :=
      fun h => hinv.status_ne ((perform_rspStatus op rest (p, s)).symm.trans h)
    rw [runSequencer_of_more htodo hrest] at hset ⊢
    exact inv_of_initialized hinv hok.initialized hset hstatus hdriven nofun
      fun _ hq => Option.some.inj hq ▸ hok.perform htodo hrest

/-! ## The invariant: every step -/

/-- A step from a state of the invariant answers a next state: the status is not the reserved one, and `display` is a
legal value (log entries 8 and 9). -/
theorem step_answers {s : State} (hinv : Inv s) : ∃ t, step s = .next t := by
  have hs := hinv.status_ne
  cases he : event s with
  | reset => exact ⟨_, step_reset (inputs_of_event_reset he)⟩
  | quiet =>
    rw [step_of_quiet he hs, quietStep]
    cases (taken s).poll with
    | some p => exact ⟨_, rfl⟩
    | none => exact ⟨_, rfl⟩
  | word w =>
    have hin := inputs_of_event_word he
    cases hpoll : s.poll with
    | some p => exact ⟨_, step_word_busy hin hs hpoll⟩
    | none =>
      cases hdecode : decode w with
      | error e => exact ⟨_, step_word_illegal hin hs hpoll hdecode⟩
      | ok i =>
        rw [stepRunsTheDecodedCommand s w _ i hin hpoll hs hdecode]
        rcases exec_cases i { s with inputs := s.inputs.tail } with ⟨t, ht, -⟩ | ⟨hgt, -⟩
        · exact ⟨t, ht⟩
        · exact absurd hinv.display_le (Nat.not_le.mpr hgt)

/-- A step keeps the invariant, whichever it is (`step_cases`). -/
theorem step_keeps_inv {s t : State} (hinv : Inv s) (hstep : step s = .next t) : Inv t := by
  have htaken := inv_taken hinv
  rcases step_cases hstep with ⟨-, rfl⟩ | ⟨-, ⟨w, p, -, -, rfl⟩ | ⟨w, e, -, -, -, rfl⟩ | ⟨w, i, -, hpoll, -, hexec⟩ |
    ⟨p, -, hp, rfl⟩ | ⟨-, -, rfl⟩⟩
  · exact inv_takeReset hinv.tables_wf
  · exact inv_answered htaken (Status.code_ne_seven .busy) 0#32
  · exact inv_answered htaken (Status.code_ne_seven .illegalCommand) 0#32
  · exact inv_effect htaken hpoll (exec_effect hexec)
  · exact inv_runSequencer htaken hp
  · exact htaken

/-- Settles O15: a step answers, and what it answers keeps the invariant. -/
theorem everyStepAnswersAndKeepsTheInvariant : Obligations.EveryStepAnswersAndKeepsTheInvariant := by
  intro s hinv
  obtain ⟨t, hstep⟩ := step_answers hinv
  exact ⟨t, hstep, step_keeps_inv hinv hstep⟩

/-! ## The mask of a running POLL -/

/-- The mask of a running POLL holds the buttons sampled so far: those that are not among the samples to come. -/
theorem maskTracks_iff (s : State) :
    MaskTracks s ↔ ∀ p, s.poll = some p → MarksButtons (samplesIn p.todo) p.mask s.button := by
  refine forall_congr' fun p => imp_congr_right fun _ => forall_congr' fun b => ?_
  rw [← mem_samplesIn]
  by_cases hb : b ∈ samplesIn p.todo <;> simp [hb]

/-- With no POLL running there is no mask. -/
theorem maskTracks_of_idle {s : State} (h : s.poll = none) : MaskTracks s :=
  fun _ hp => nomatch h.symm.trans hp

/-- An action that samples no button of the samples after it keeps the mask on the buttons (43_poll.md R185). -/
theorem perform_marksButtons {op : SeqOp} {rest : List SeqOp} {p : Sequencer} {s : State}
    (h : MarksButtons (samplesIn (op :: rest)) p.mask s.button) (honce : (samplesIn (op :: rest)).Nodup) :
    MarksButtons (samplesIn rest) (perform op rest (p, s)).1.mask (perform op rest (p, s)).2.button := by
  cases op with
  | sample b =>
    obtain ⟨hb, -⟩ := List.nodup_cons.mp honce
    exact MarksButtons.sample h hb (!dinLevel s)
  | beginTransfer | clockLow | wait | driveData | clockHigh | endTransfer => exact h

/-- What is left of a POLL in order samples each button once at most (43_poll.md R184). -/
theorem Safety.SequencerOk.samplesIn_nodup {s : State} {p : Sequencer} (h : SequencerOk s p) :
    (samplesIn p.todo).Nodup := by
  have hsub : (samplesIn p.todo).Sublist scanOrder := by
    rw [h.todo_eq, ← samplesIn_pollProgram]
    exact (List.drop_sublist _ _).filterMap _
  exact hsub.nodup (by decide)

/-- A POLL just accepted has a mask with no bit set, and every button to sample. -/
theorem maskTracks_start (s : State) : MaskTracks { s with poll := some (startSequencer s) } := by
  rw [maskTracks_iff]
  rintro p ⟨⟩
  show MarksButtons (samplesIn pollProgram) 0#7 s.button
  rw [samplesIn_pollProgram]
  exact marksButtons_zero s.button

/-- A command on an idle SPC starts no mask but that of an accepted POLL. -/
theorem maskTracks_effect {s t : State} {i : Instr} (hidle : s.poll = none) (h : Effect s i t) : MaskTracks t := by
  cases h with
  | init =>
    obtain ⟨-, hpoll, -⟩ := initLines_keeps s
    exact maskTracks_of_idle (hpoll.trans hidle)
  | poll => exact maskTracks_start s
  | answer | leds | display | displayEn | buzzer | celsius => exact maskTracks_of_idle hidle

/-- A step of a running POLL in order keeps the mask on the buttons. -/
theorem maskTracks_runSequencer {s : State} {p : Sequencer} (hok : SequencerOk s p) (hp : s.poll = some p)
    (hmask : MaskTracks s) : MaskTracks (runSequencer p s) := by
  obtain ⟨op, rest, htodo⟩ := hok.todo_cons
  have hmarks := (maskTracks_iff s).mp hmask p hp
  have honce := hok.samplesIn_nodup
  by_cases hrest : rest = []
  · subst hrest
    rw [runSequencer_last htodo]
    exact maskTracks_of_idle rfl
  · rw [runSequencer_of_more htodo hrest, maskTracks_iff]
    rintro q ⟨⟩
    rw [htodo] at hmarks honce
    exact perform_marksButtons hmarks honce

/-- Settles O16, by everything a step can do (`step_cases`). -/
theorem everyStepKeepsTheMaskOnTheButtons : Obligations.EveryStepKeepsTheMaskOnTheButtons := by
  intro s t hinv hmask hstep
  rcases step_cases hstep with ⟨-, rfl⟩ | ⟨-, ⟨w, p, -, -, rfl⟩ | ⟨w, e, -, hpoll, -, rfl⟩ |
    ⟨w, i, -, hpoll, -, hexec⟩ | ⟨p, -, hp, rfl⟩ | ⟨-, hpoll, rfl⟩⟩
  · exact maskTracks_of_idle rfl
  · exact hmask
  · exact maskTracks_of_idle hpoll
  · exact maskTracks_effect (s := taken s) hpoll (exec_effect hexec)
  · exact maskTracks_runSequencer ((inv_taken hinv).running p hp) hp hmask
  · exact maskTracks_of_idle hpoll

end Sys2Proof
end
